-- ==== Sys2Proof/Word.lean ====
section
/-!
DEFINITION. The two word types of the 6502 core (10_state.md R20, 20_memory.md R50): a byte of 8 bits and an address of 16.
-/

namespace Sys2Proof

/-- A register's or a memory cell's contents (00_scope.md R9, `XLEN`). -/
abbrev Byte := BitVec 8

/-- An address, the width of `PC` (00_scope.md R9, `ALEN`). -/
abbrev Addr := BitVec 16

end Sys2Proof
end

