-- ==== Sys2Proof/Config.lean ====
section
/-!
DEFINITION. What the platform fixes (00_scope.md R9): the variant, the memory map, and how a device answers. The last is the
model's one free value: a constant without a body, so that nothing can be proved about what a device does.
-/

namespace Sys2Proof

/-- The instruction-set personality (00_scope.md R3). `VARIANT` ranges over these two (93_implementation_defined.md U10). -/
inductive Variant where
  | nmos
  | cmos
deriving DecidableEq, Repr

/-- What a window of the address space holds (20_memory.md R55). A device is named by a number of the platform's choice. -/
inductive RegionKind where
  | ram
  | rom
  | device (id : Nat)
deriving DecidableEq, Repr

/-- One window of the memory map: the addresses `base` to `base + size - 1`. -/
structure Region where
  base : Nat
  size : Nat
  kind : RegionKind
deriving DecidableEq, Repr

/-- One bus access, as a device sees it: a `Read` with the byte it returned, or a `Write` with its byte (20_memory.md R51,
R52). -/
inductive Access where
  | read (addr : Addr) (value : Byte)
  | write (addr : Addr) (value : Byte)
deriving DecidableEq, Repr

/-- The address accessed. -/
def Access.addr : Access → Addr
  | .read a _ | .write a _ => a

/-- What a device does on one access: the byte a read returns, the extra cycles (`BusCost`, 20_memory.md R70), whether it
calls `AssertNMI()`, whether it calls `AssertIRQ()` (`some true`) or `ClearIRQ()` (`some false`) (60_exceptions.md R266), and
the bytes it stores in RAM or ROM, in order ("by a device acting inside an earlier access", 20_memory.md R63). -/
structure DeviceReply where
  value : Byte
  cost : Nat
  nmi : Bool
  irq : Option Bool
  stores : List (Addr × Byte)
deriving DecidableEq, Repr, Inhabited

/-- FREE VALUE, log entry 6. What the device numbered `id` does when `addr` is read (`written = none`) or written (`written =
some v`) with `clock` on the cycle counter, after the accesses of `log`. "may have any side effect the platform defines"
(20_memory.md R60); a device may expose `clock` (10_state.md R40, 70_reset_and_hazards.md R315). -/
opaque Config.deviceReply (id : Nat) (addr : Addr) (written : Option Byte) (clock : Nat) (log : List Access) : DeviceReply

end Sys2Proof
end

