-- ==== Sys2Proof/Syntax.lean ====
section
/-!
DEFINITION. The instruction set as syntax: one constructor for each of the 178 rows of spec/opcode_table.json
(30_encoding.md R87). A constructor's name is its mnemonic and, where the mnemonic has several rows, its addressing
mode; it carries the operand byte (format I2, R82) or the operand word (format I3, R83) and nothing else: an operand byte
`v` is immediate data, `z` a zero page address, `off` a branch offset, an operand word `a` an address.
-/

namespace Sys2Proof

/-- One instruction, with its operand as fetched. The comment beside each constructor is its assembler form (30_encoding.md
R92); "CMOS" marks the 27 rows that are legal in the CMOS variant only. -/
inductive Instr where
  -- Loads, stores, transfers (41_load_store_transfer.md)
  | ldaImm (v : Byte)  -- LDA #v (R121)
  | ldaZp (z : Byte)  -- LDA z (R121)
  | ldaZpx (z : Byte)  -- LDA z,X (R121)
  | ldaAbs (a : Addr)  -- LDA a (R121)
  | ldaAbsx (a : Addr)  -- LDA a,X (R121)
  | ldaAbsy (a : Addr)  -- LDA a,Y (R121)
  | ldaIndx (z : Byte)  -- LDA (z,X) (R121)
  | ldaIndy (z : Byte)  -- LDA (z),Y (R121)
  | ldaIzp (z : Byte)  -- LDA (z) (R121, R231, CMOS)
  | ldxImm (v : Byte)  -- LDX #v (R122)
  | ldxZp (z : Byte)  -- LDX z (R122)
  | ldxZpy (z : Byte)  -- LDX z,Y (R122)
  | ldxAbs (a : Addr)  -- LDX a (R122)
  | ldxAbsy (a : Addr)  -- LDX a,Y (R122)
  | ldyImm (v : Byte)  -- LDY #v (R123)
  | ldyZp (z : Byte)  -- LDY z (R123)
  | ldyZpx (z : Byte)  -- LDY z,X (R123)
  | ldyAbs (a : Addr)  -- LDY a (R123)
  | ldyAbsx (a : Addr)  -- LDY a,X (R123)
  | staZp (z : Byte)  -- STA z (R124)
  | staZpx (z : Byte)  -- STA z,X (R124)
  | staAbs (a : Addr)  -- STA a (R124)
  | staAbsx (a : Addr)  -- STA a,X (R124)
  | staAbsy (a : Addr)  -- STA a,Y (R124)
  | staIndx (z : Byte)  -- STA (z,X) (R124)
  | staIndy (z : Byte)  -- STA (z),Y (R124)
  | staIzp (z : Byte)  -- STA (z) (R124, R231, CMOS)
  | stxZp (z : Byte)  -- STX z (R125)
  | stxZpy (z : Byte)  -- STX z,Y (R125)
  | stxAbs (a : Addr)  -- STX a (R125)
  | styZp (z : Byte)  -- STY z (R126)
  | styZpx (z : Byte)  -- STY z,X (R126)
  | styAbs (a : Addr)  -- STY a (R126)
  | tax  -- TAX (R127)
  | tay  -- TAY (R128)
  | txa  -- TXA (R129)
  | tya  -- TYA (R130)
  | tsx  -- TSX (R131)
  | txs  -- TXS (R132)
  -- Stack (42_stack.md)
  | pha  -- PHA (R140)
  | php  -- PHP (R141)
  | pla  -- PLA (R142)
  | plp  -- PLP (R143)
  -- Logic, arithmetic, compare (43_logic_arith.md)
  | andImm (v : Byte)  -- AND #v (R154)
  | andZp (z : Byte)  -- AND z (R154)
  | andZpx (z : Byte)  -- AND z,X (R154)
  | andAbs (a : Addr)  -- AND a (R154)
  | andAbsx (a : Addr)  -- AND a,X (R154)
  | andAbsy (a : Addr)  -- AND a,Y (R154)
  | andIndx (z : Byte)  -- AND (z,X) (R154)
  | andIndy (z : Byte)  -- AND (z),Y (R154)
  | andIzp (z : Byte)  -- AND (z) (R154, R231, CMOS)
  | oraImm (v : Byte)  -- ORA #v (R155)
  | oraZp (z : Byte)  -- ORA z (R155)
  | oraZpx (z : Byte)  -- ORA z,X (R155)
  | oraAbs (a : Addr)  -- ORA a (R155)
  | oraAbsx (a : Addr)  -- ORA a,X (R155)
  | oraAbsy (a : Addr)  -- ORA a,Y (R155)
  | oraIndx (z : Byte)  -- ORA (z,X) (R155)
  | oraIndy (z : Byte)  -- ORA (z),Y (R155)
  | oraIzp (z : Byte)  -- ORA (z) (R155, R231, CMOS)
  | eorImm (v : Byte)  -- EOR #v (R156)
  | eorZp (z : Byte)  -- EOR z (R156)
  | eorZpx (z : Byte)  -- EOR z,X (R156)
  | eorAbs (a : Addr)  -- EOR a (R156)
  | eorAbsx (a : Addr)  -- EOR a,X (R156)
  | eorAbsy (a : Addr)  -- EOR a,Y (R156)
  | eorIndx (z : Byte)  -- EOR (z,X) (R156)
  | eorIndy (z : Byte)  -- EOR (z),Y (R156)
  | eorIzp (z : Byte)  -- EOR (z) (R156, R231, CMOS)
  | bitImm (v : Byte)  -- BIT #v (R243, R157, CMOS)
  | bitZp (z : Byte)  -- BIT z (R157)
  | bitZpx (z : Byte)  -- BIT z,X (R157, R243, CMOS)
  | bitAbs (a : Addr)  -- BIT a (R157)
  | bitAbsx (a : Addr)  -- BIT a,X (R157, R243, CMOS)
  | adcImm (v : Byte)  -- ADC #v (R158)
  | adcZp (z : Byte)  -- ADC z (R158)
  | adcZpx (z : Byte)  -- ADC z,X (R158)
  | adcAbs (a : Addr)  -- ADC a (R158)
  | adcAbsx (a : Addr)  -- ADC a,X (R158)
  | adcAbsy (a : Addr)  -- ADC a,Y (R158)
  | adcIndx (z : Byte)  -- ADC (z,X) (R158)
  | adcIndy (z : Byte)  -- ADC (z),Y (R158)
  | adcIzp (z : Byte)  -- ADC (z) (R158, R231, CMOS)
  | sbcImm (v : Byte)  -- SBC #v (R159)
  | sbcZp (z : Byte)  -- SBC z (R159)
  | sbcZpx (z : Byte)  -- SBC z,X (R159)
  | sbcAbs (a : Addr)  -- SBC a (R159)
  | sbcAbsx (a : Addr)  -- SBC a,X (R159)
  | sbcAbsy (a : Addr)  -- SBC a,Y (R159)
  | sbcIndx (z : Byte)  -- SBC (z,X) (R159)
  | sbcIndy (z : Byte)  -- SBC (z),Y (R159)
  | sbcIzp (z : Byte)  -- SBC (z) (R159, R231, CMOS)
  | cmpImm (v : Byte)  -- CMP #v (R160)
  | cmpZp (z : Byte)  -- CMP z (R160)
  | cmpZpx (z : Byte)  -- CMP z,X (R160)
  | cmpAbs (a : Addr)  -- CMP a (R160)
  | cmpAbsx (a : Addr)  -- CMP a,X (R160)
  | cmpAbsy (a : Addr)  -- CMP a,Y (R160)
  | cmpIndx (z : Byte)  -- CMP (z,X) (R160)
  | cmpIndy (z : Byte)  -- CMP (z),Y (R160)
  | cmpIzp (z : Byte)  -- CMP (z) (R160, R231, CMOS)
  | cpxImm (v : Byte)  -- CPX #v (R161)
  | cpxZp (z : Byte)  -- CPX z (R161)
  | cpxAbs (a : Addr)  -- CPX a (R161)
  | cpyImm (v : Byte)  -- CPY #v (R162)
  | cpyZp (z : Byte)  -- CPY z (R162)
  | cpyAbs (a : Addr)  -- CPY a (R162)
  -- Increment, decrement, shift, rotate (44_incdec_shift.md)
  | incAcc  -- INC A (R241, R171, CMOS)
  | incZp (z : Byte)  -- INC z (R171)
  | incZpx (z : Byte)  -- INC z,X (R171)
  | incAbs (a : Addr)  -- INC a (R171)
  | incAbsx (a : Addr)  -- INC a,X (R171)
  | decAcc  -- DEC A (R242, R172, CMOS)
  | decZp (z : Byte)  -- DEC z (R172)
  | decZpx (z : Byte)  -- DEC z,X (R172)
  | decAbs (a : Addr)  -- DEC a (R172)
  | decAbsx (a : Addr)  -- DEC a,X (R172)
  | inx  -- INX (R173)
  | iny  -- INY (R174)
  | dex  -- DEX (R175)
  | dey  -- DEY (R176)
  | aslAcc  -- ASL A (R177)
  | aslZp (z : Byte)  -- ASL z (R177)
  | aslZpx (z : Byte)  -- ASL z,X (R177)
  | aslAbs (a : Addr)  -- ASL a (R177)
  | aslAbsx (a : Addr)  -- ASL a,X (R177, R250)
  | lsrAcc  -- LSR A (R178)
  | lsrZp (z : Byte)  -- LSR z (R178)
  | lsrZpx (z : Byte)  -- LSR z,X (R178)
  | lsrAbs (a : Addr)  -- LSR a (R178)
  | lsrAbsx (a : Addr)  -- LSR a,X (R178, R250)
  | rolAcc  -- ROL A (R179)
  | rolZp (z : Byte)  -- ROL z (R179)
  | rolZpx (z : Byte)  -- ROL z,X (R179)
  | rolAbs (a : Addr)  -- ROL a (R179)
  | rolAbsx (a : Addr)  -- ROL a,X (R179, R250)
  | rorAcc  -- ROR A (R180)
  | rorZp (z : Byte)  -- ROR z (R180)
  | rorZpx (z : Byte)  -- ROR z,X (R180)
  | rorAbs (a : Addr)  -- ROR a (R180)
  | rorAbsx (a : Addr)  -- ROR a,X (R180, R250)
  -- Jumps, calls, branches (45_control_flow.md)
  | jmpAbs (a : Addr)  -- JMP a (R190)
  | jmpInd (a : Addr)  -- JMP (a) (R190, R245)
  | jmpIax (a : Addr)  -- JMP (a,X) (R244, R190, CMOS)
  | jsr (a : Addr)  -- JSR a (R191)
  | rts  -- RTS (R192)
  | bcc (off : Byte)  -- BCC off (R194)
  | bcs (off : Byte)  -- BCS off (R195)
  | beq (off : Byte)  -- BEQ off (R196)
  | bmi (off : Byte)  -- BMI off (R197)
  | bne (off : Byte)  -- BNE off (R198)
  | bpl (off : Byte)  -- BPL off (R199)
  | bvc (off : Byte)  -- BVC off (R200)
  | bvs (off : Byte)  -- BVS off (R201)
  -- Flags and NOP (46_flags_nop.md)
  | clc  -- CLC (R210)
  | sec  -- SEC (R211)
  | cli  -- CLI (R212)
  | sei  -- SEI (R213)
  | cld  -- CLD (R214)
  | sed  -- SED (R215)
  | clv  -- CLV (R216)
  | nop  -- NOP (R217)
  -- System (47_system.md)
  | brk  -- BRK (R220)
  | rti  -- RTI (R221)
  -- Instructions of the CMOS variant only (48_cmos_extensions.md)
  | bra (off : Byte)  -- BRA off (R232, CMOS)
  | phx  -- PHX (R233, CMOS)
  | phy  -- PHY (R234, CMOS)
  | plx  -- PLX (R235, CMOS)
  | ply  -- PLY (R236, CMOS)
  | stzZp (z : Byte)  -- STZ z (R237, CMOS)
  | stzZpx (z : Byte)  -- STZ z,X (R237, CMOS)
  | stzAbs (a : Addr)  -- STZ a (R237, CMOS)
  | stzAbsx (a : Addr)  -- STZ a,X (R237, CMOS)
  | trbZp (z : Byte)  -- TRB z (R238, CMOS)
  | trbAbs (a : Addr)  -- TRB a (R238, CMOS)
  | tsbZp (z : Byte)  -- TSB z (R239, CMOS)
  | tsbAbs (a : Addr)  -- TSB a (R239, CMOS)
deriving DecidableEq, Repr

end Sys2Proof
end

