-- ==== Sys2Proof/WellFormed.lean ====
section
/-!
DEFINITION. Which instructions a variant has (30_encoding.md R87, 00_scope.md R3). Operands need no check: "every value of
`op8` and `op16` is legal in every mode" (R91), and an instruction's modes are its constructors.
-/

namespace Sys2Proof

/-- The 27 rows that are legal in `VARIANT = CMOS` only (30_encoding.md R87, 48_cmos_extensions.md R230). -/
def Instr.cmosOnly : Instr → Bool
  | .ldaIzp _ => true
  | .staIzp _ => true
  | .andIzp _ => true
  | .oraIzp _ => true
  | .eorIzp _ => true
  | .bitImm _ => true
  | .bitZpx _ => true
  | .bitAbsx _ => true
  | .adcIzp _ => true
  | .sbcIzp _ => true
  | .cmpIzp _ => true
  | .incAcc => true
  | .decAcc => true
  | .jmpIax _ => true
  | .bra _ => true
  | .phx => true
  | .phy => true
  | .plx => true
  | .ply => true
  | .stzZp _ => true
  | .stzZpx _ => true
  | .stzAbs _ => true
  | .stzAbsx _ => true
  | .trbZp _ => true
  | .trbAbs _ => true
  | .tsbZp _ => true
  | .tsbAbs _ => true
  | .ldaImm _ | .ldaZp _ | .ldaZpx _ | .ldaAbs _ | .ldaAbsx _ | .ldaAbsy _ | .ldaIndx _ | .ldaIndy _ => false
  | .ldxImm _ | .ldxZp _ | .ldxZpy _ | .ldxAbs _ | .ldxAbsy _ => false
  | .ldyImm _ | .ldyZp _ | .ldyZpx _ | .ldyAbs _ | .ldyAbsx _ => false
  | .staZp _ | .staZpx _ | .staAbs _ | .staAbsx _ | .staAbsy _ | .staIndx _ | .staIndy _ => false
  | .stxZp _ | .stxZpy _ | .stxAbs _ => false
  | .styZp _ | .styZpx _ | .styAbs _ => false
  | .tax => false
  | .tay => false
  | .txa => false
  | .tya => false
  | .tsx => false
  | .txs => false
  | .pha => false
  | .php => false
  | .pla => false
  | .plp => false
  | .andImm _ | .andZp _ | .andZpx _ | .andAbs _ | .andAbsx _ | .andAbsy _ | .andIndx _ | .andIndy _ => false
  | .oraImm _ | .oraZp _ | .oraZpx _ | .oraAbs _ | .oraAbsx _ | .oraAbsy _ | .oraIndx _ | .oraIndy _ => false
  | .eorImm _ | .eorZp _ | .eorZpx _ | .eorAbs _ | .eorAbsx _ | .eorAbsy _ | .eorIndx _ | .eorIndy _ => false
  | .bitZp _ | .bitAbs _ => false
  | .adcImm _ | .adcZp _ | .adcZpx _ | .adcAbs _ | .adcAbsx _ | .adcAbsy _ | .adcIndx _ | .adcIndy _ => false
  | .sbcImm _ | .sbcZp _ | .sbcZpx _ | .sbcAbs _ | .sbcAbsx _ | .sbcAbsy _ | .sbcIndx _ | .sbcIndy _ => false
  | .cmpImm _ | .cmpZp _ | .cmpZpx _ | .cmpAbs _ | .cmpAbsx _ | .cmpAbsy _ | .cmpIndx _ | .cmpIndy _ => false
  | .cpxImm _ | .cpxZp _ | .cpxAbs _ => false
  | .cpyImm _ | .cpyZp _ | .cpyAbs _ => false
  | .incZp _ | .incZpx _ | .incAbs _ | .incAbsx _ => false
  | .decZp _ | .decZpx _ | .decAbs _ | .decAbsx _ => false
  | .inx => false
  | .iny => false
  | .dex => false
  | .dey => false
  | .aslAcc | .aslZp _ | .aslZpx _ | .aslAbs _ | .aslAbsx _ => false
  | .lsrAcc | .lsrZp _ | .lsrZpx _ | .lsrAbs _ | .lsrAbsx _ => false
  | .rolAcc | .rolZp _ | .rolZpx _ | .rolAbs _ | .rolAbsx _ => false
  | .rorAcc | .rorZp _ | .rorZpx _ | .rorAbs _ | .rorAbsx _ => false
  | .jmpAbs _ | .jmpInd _ => false
  | .jsr _ => false
  | .rts => false
  | .bcc _ => false
  | .bcs _ => false
  | .beq _ => false
  | .bmi _ => false
  | .bne _ => false
  | .bpl _ => false
  | .bvc _ => false
  | .bvs _ => false
  | .clc => false
  | .sec => false
  | .cli => false
  | .sei => false
  | .cld => false
  | .sed => false
  | .clv => false
  | .nop => false
  | .brk => false
  | .rti => false

/-- An instruction is well formed for a variant when the variant has it. -/
def Instr.wellFormed (variant : Variant) (i : Instr) : Bool :=
  match variant with
  | .nmos => !i.cmosOnly
  | .cmos => true

end Sys2Proof
end

