-- ==== Sys2Proof/Decode.lean ====
section
/-!
DEFINITION. Decoding (30_encoding.md R80 to R91): an opcode byte selects a row of its variant's table, the row says how many
operand bytes follow, and the operand word is stored low byte first. Then the encoder, written from the encoding tables of
the instruction rules.
-/

namespace Sys2Proof

/-- Bits 7..0 of a 16-bit value. -/
def loByte (w : Addr) : Byte := w.setWidth 8

/-- Bits 15..8 of a 16-bit value. -/
def hiByte (w : Addr) : Byte := (w >>> 8).setWidth 8

/-- `hi:lo`, the left operand more significant (00_scope.md R10). -/
def mkAddr (lo hi : Byte) : Addr := hi ++ lo

/-- What follows an opcode byte (30_encoding.md R81 to R83): nothing, one operand byte, or an operand word. -/
inductive Form where
  | i1 (i : Instr)
  | i2 (build : Byte → Instr)
  | i3 (build : Addr → Instr)

/-- One row of the opcode table. -/
structure OpcodeRow where
  opcode : Byte
  cmosOnly : Bool
  form : Form

/-- A row legal in both variants. -/
def row (opcode : Byte) (form : Form) : OpcodeRow := ⟨opcode, false, form⟩

/-- A row legal in `VARIANT = CMOS` only. -/
def cmosRow (opcode : Byte) (form : Form) : OpcodeRow := ⟨opcode, true, form⟩

/-- Loads, stores, transfers (41_load_store_transfer.md), part 1. -/
def loadStoreRows1 : List OpcodeRow :=
  [ row 0xA9 (.i2 .ldaImm)
  , row 0xA5 (.i2 .ldaZp)
  , row 0xB5 (.i2 .ldaZpx)
  , row 0xAD (.i3 .ldaAbs)
  , row 0xBD (.i3 .ldaAbsx)
  , row 0xB9 (.i3 .ldaAbsy)
  , row 0xA1 (.i2 .ldaIndx)
  , row 0xB1 (.i2 .ldaIndy)
  , cmosRow 0xB2 (.i2 .ldaIzp)
  , row 0xA2 (.i2 .ldxImm)
  , row 0xA6 (.i2 .ldxZp)
  , row 0xB6 (.i2 .ldxZpy)
  , row 0xAE (.i3 .ldxAbs)
  , row 0xBE (.i3 .ldxAbsy)
  , row 0xA0 (.i2 .ldyImm)
  , row 0xA4 (.i2 .ldyZp)
  , row 0xB4 (.i2 .ldyZpx)
  , row 0xAC (.i3 .ldyAbs)
  , row 0xBC (.i3 .ldyAbsx) ]

/-- Loads, stores, transfers (41_load_store_transfer.md), part 2. -/
def loadStoreRows2 : List OpcodeRow :=
  [ row 0x85 (.i2 .staZp)
  , row 0x95 (.i2 .staZpx)
  , row 0x8D (.i3 .staAbs)
  , row 0x9D (.i3 .staAbsx)
  , row 0x99 (.i3 .staAbsy)
  , row 0x81 (.i2 .staIndx)
  , row 0x91 (.i2 .staIndy)
  , cmosRow 0x92 (.i2 .staIzp)
  , row 0x86 (.i2 .stxZp)
  , row 0x96 (.i2 .stxZpy)
  , row 0x8E (.i3 .stxAbs)
  , row 0x84 (.i2 .styZp)
  , row 0x94 (.i2 .styZpx)
  , row 0x8C (.i3 .styAbs)
  , row 0xAA (.i1 .tax)
  , row 0xA8 (.i1 .tay)
  , row 0x8A (.i1 .txa)
  , row 0x98 (.i1 .tya)
  , row 0xBA (.i1 .tsx)
  , row 0x9A (.i1 .txs) ]

/-- Stack (42_stack.md). -/
def stackRows : List OpcodeRow :=
  [ row 0x48 (.i1 .pha)
  , row 0x08 (.i1 .php)
  , row 0x68 (.i1 .pla)
  , row 0x28 (.i1 .plp) ]

/-- Logic, arithmetic, compare (43_logic_arith.md), part 1. -/
def logicRows1 : List OpcodeRow :=
  [ row 0x29 (.i2 .andImm)
  , row 0x25 (.i2 .andZp)
  , row 0x35 (.i2 .andZpx)
  , row 0x2D (.i3 .andAbs)
  , row 0x3D (.i3 .andAbsx)
  , row 0x39 (.i3 .andAbsy)
  , row 0x21 (.i2 .andIndx)
  , row 0x31 (.i2 .andIndy)
  , cmosRow 0x32 (.i2 .andIzp)
  , row 0x09 (.i2 .oraImm)
  , row 0x05 (.i2 .oraZp)
  , row 0x15 (.i2 .oraZpx)
  , row 0x0D (.i3 .oraAbs)
  , row 0x1D (.i3 .oraAbsx)
  , row 0x19 (.i3 .oraAbsy)
  , row 0x01 (.i2 .oraIndx)
  , row 0x11 (.i2 .oraIndy)
  , cmosRow 0x12 (.i2 .oraIzp) ]

/-- Logic, arithmetic, compare (43_logic_arith.md), part 2. -/
def logicRows2 : List OpcodeRow :=
  [ row 0x49 (.i2 .eorImm)
  , row 0x45 (.i2 .eorZp)
  , row 0x55 (.i2 .eorZpx)
  , row 0x4D (.i3 .eorAbs)
  , row 0x5D (.i3 .eorAbsx)
  , row 0x59 (.i3 .eorAbsy)
  , row 0x41 (.i2 .eorIndx)
  , row 0x51 (.i2 .eorIndy)
  , cmosRow 0x52 (.i2 .eorIzp)
  , cmosRow 0x89 (.i2 .bitImm)
  , row 0x24 (.i2 .bitZp)
  , cmosRow 0x34 (.i2 .bitZpx)
  , row 0x2C (.i3 .bitAbs)
  , cmosRow 0x3C (.i3 .bitAbsx)
  , row 0x69 (.i2 .adcImm)
  , row 0x65 (.i2 .adcZp)
  , row 0x75 (.i2 .adcZpx)
  , row 0x6D (.i3 .adcAbs)
  , row 0x7D (.i3 .adcAbsx)
  , row 0x79 (.i3 .adcAbsy)
  , row 0x61 (.i2 .adcIndx)
  , row 0x71 (.i2 .adcIndy)
  , cmosRow 0x72 (.i2 .adcIzp) ]

/-- Logic, arithmetic, compare (43_logic_arith.md), part 3. -/
def logicRows3 : List OpcodeRow :=
  [ row 0xE9 (.i2 .sbcImm)
  , row 0xE5 (.i2 .sbcZp)
  , row 0xF5 (.i2 .sbcZpx)
  , row 0xED (.i3 .sbcAbs)
  , row 0xFD (.i3 .sbcAbsx)
  , row 0xF9 (.i3 .sbcAbsy)
  , row 0xE1 (.i2 .sbcIndx)
  , row 0xF1 (.i2 .sbcIndy)
  , cmosRow 0xF2 (.i2 .sbcIzp)
  , row 0xC9 (.i2 .cmpImm)
  , row 0xC5 (.i2 .cmpZp)
  , row 0xD5 (.i2 .cmpZpx)
  , row 0xCD (.i3 .cmpAbs)
  , row 0xDD (.i3 .cmpAbsx)
  , row 0xD9 (.i3 .cmpAbsy)
  , row 0xC1 (.i2 .cmpIndx)
  , row 0xD1 (.i2 .cmpIndy)
  , cmosRow 0xD2 (.i2 .cmpIzp)
  , row 0xE0 (.i2 .cpxImm)
  , row 0xE4 (.i2 .cpxZp)
  , row 0xEC (.i3 .cpxAbs)
  , row 0xC0 (.i2 .cpyImm)
  , row 0xC4 (.i2 .cpyZp)
  , row 0xCC (.i3 .cpyAbs) ]

/-- Increment, decrement, shift, rotate (44_incdec_shift.md), part 1. -/
def incShiftRows1 : List OpcodeRow :=
  [ cmosRow 0x1A (.i1 .incAcc)
  , row 0xE6 (.i2 .incZp)
  , row 0xF6 (.i2 .incZpx)
  , row 0xEE (.i3 .incAbs)
  , row 0xFE (.i3 .incAbsx)
  , cmosRow 0x3A (.i1 .decAcc)
  , row 0xC6 (.i2 .decZp)
  , row 0xD6 (.i2 .decZpx)
  , row 0xCE (.i3 .decAbs)
  , row 0xDE (.i3 .decAbsx)
  , row 0xE8 (.i1 .inx)
  , row 0xC8 (.i1 .iny)
  , row 0xCA (.i1 .dex)
  , row 0x88 (.i1 .dey)
  , row 0x0A (.i1 .aslAcc)
  , row 0x06 (.i2 .aslZp)
  , row 0x16 (.i2 .aslZpx)
  , row 0x0E (.i3 .aslAbs)
  , row 0x1E (.i3 .aslAbsx)
  , row 0x4A (.i1 .lsrAcc)
  , row 0x46 (.i2 .lsrZp)
  , row 0x56 (.i2 .lsrZpx)
  , row 0x4E (.i3 .lsrAbs)
  , row 0x5E (.i3 .lsrAbsx) ]

/-- Increment, decrement, shift, rotate (44_incdec_shift.md), part 2. -/
def incShiftRows2 : List OpcodeRow :=
  [ row 0x2A (.i1 .rolAcc)
  , row 0x26 (.i2 .rolZp)
  , row 0x36 (.i2 .rolZpx)
  , row 0x2E (.i3 .rolAbs)
  , row 0x3E (.i3 .rolAbsx)
  , row 0x6A (.i1 .rorAcc)
  , row 0x66 (.i2 .rorZp)
  , row 0x76 (.i2 .rorZpx)
  , row 0x6E (.i3 .rorAbs)
  , row 0x7E (.i3 .rorAbsx) ]

/-- Jumps, calls, branches (45_control_flow.md). -/
def controlRows : List OpcodeRow :=
  [ row 0x4C (.i3 .jmpAbs)
  , row 0x6C (.i3 .jmpInd)
  , cmosRow 0x7C (.i3 .jmpIax)
  , row 0x20 (.i3 .jsr)
  , row 0x60 (.i1 .rts)
  , row 0x90 (.i2 .bcc)
  , row 0xB0 (.i2 .bcs)
  , row 0xF0 (.i2 .beq)
  , row 0x30 (.i2 .bmi)
  , row 0xD0 (.i2 .bne)
  , row 0x10 (.i2 .bpl)
  , row 0x50 (.i2 .bvc)
  , row 0x70 (.i2 .bvs) ]

/-- Flags and NOP (46_flags_nop.md). -/
def flagRows : List OpcodeRow :=
  [ row 0x18 (.i1 .clc)
  , row 0x38 (.i1 .sec)
  , row 0x58 (.i1 .cli)
  , row 0x78 (.i1 .sei)
  , row 0xD8 (.i1 .cld)
  , row 0xF8 (.i1 .sed)
  , row 0xB8 (.i1 .clv)
  , row 0xEA (.i1 .nop) ]

/-- System (47_system.md). -/
def systemRows : List OpcodeRow :=
  [ row 0x00 (.i1 .brk)
  , row 0x40 (.i1 .rti) ]

/-- Instructions of the CMOS variant only (48_cmos_extensions.md). -/
def cmosOnlyRows : List OpcodeRow :=
  [ cmosRow 0x80 (.i2 .bra)
  , cmosRow 0xDA (.i1 .phx)
  , cmosRow 0x5A (.i1 .phy)
  , cmosRow 0xFA (.i1 .plx)
  , cmosRow 0x7A (.i1 .ply)
  , cmosRow 0x64 (.i2 .stzZp)
  , cmosRow 0x74 (.i2 .stzZpx)
  , cmosRow 0x9C (.i3 .stzAbs)
  , cmosRow 0x9E (.i3 .stzAbsx)
  , cmosRow 0x14 (.i2 .trbZp)
  , cmosRow 0x1C (.i3 .trbAbs)
  , cmosRow 0x04 (.i2 .tsbZp)
  , cmosRow 0x0C (.i3 .tsbAbs) ]

/-- The opcode map of 30_encoding.md R87: the 178 rows that are legal in some variant. -/
def opcodeTable : List OpcodeRow :=
  loadStoreRows1 ++
  loadStoreRows2 ++
  stackRows ++
  logicRows1 ++
  logicRows2 ++
  logicRows3 ++
  incShiftRows1 ++
  incShiftRows2 ++
  controlRows ++
  flagRows ++
  systemRows ++
  cmosOnlyRows

/-- The rows of a variant: "per-variant mapping", 30_encoding.md R86. -/
def OpcodeRow.legalIn (variant : Variant) (r : OpcodeRow) : Bool :=
  match variant with
  | .nmos => !r.cmosOnly
  | .cmos => true

/-- `Decode(VARIANT, opcode)` (30_encoding.md R86), total: the row's form, or nothing for an illegal opcode. -/
def lookupOpcode (variant : Variant) (opcode : Byte) : Option Form :=
  (opcodeTable.find? fun r => r.opcode == opcode && r.legalIn variant).map (·.form)

/-- Why a list of bytes is no instruction. -/
inductive DecodeReject where
  /-- The variant has no row for the opcode byte (30_encoding.md R89, R90): the fatal decode error. -/
  | illegalOpcode (opcode : Byte)
  /-- The list ends before the instruction's last byte. Memory never does; only a caller with a short list meets it. -/
  | truncated
deriving DecidableEq, Repr

/-- Read one instruction from the front of a list of bytes; answer it with the bytes after it. -/
def decode (variant : Variant) : List Byte → Except DecodeReject (Instr × List Byte)
  | [] => .error .truncated
  | op :: rest =>
    match lookupOpcode variant op with
    | none => .error (.illegalOpcode op)
    | some (.i1 i) => .ok (i, rest)
    | some (.i2 build) =>
      match rest with
      | b :: rest' => .ok (build b, rest')
      | [] => .error .truncated
    | some (.i3 build) =>
      match rest with
      | lo :: hi :: rest' => .ok (build (mkAddr lo hi), rest')
      | _ => .error .truncated

/-- An opcode followed by an operand word, low byte at the lower address (30_encoding.md R83). -/
def encodeWord (opcode : Byte) (a : Addr) : List Byte := [opcode, loByte a, hiByte a]

/-- The bytes of an instruction, in address order. -/
def encode : Instr → List Byte
  | .ldaImm v => [0xA9, v]
  | .ldaZp z => [0xA5, z]
  | .ldaZpx z => [0xB5, z]
  | .ldaAbs a => encodeWord 0xAD a
  | .ldaAbsx a => encodeWord 0xBD a
  | .ldaAbsy a => encodeWord 0xB9 a
  | .ldaIndx z => [0xA1, z]
  | .ldaIndy z => [0xB1, z]
  | .ldaIzp z => [0xB2, z]
  | .ldxImm v => [0xA2, v]
  | .ldxZp z => [0xA6, z]
  | .ldxZpy z => [0xB6, z]
  | .ldxAbs a => encodeWord 0xAE a
  | .ldxAbsy a => encodeWord 0xBE a
  | .ldyImm v => [0xA0, v]
  | .ldyZp z => [0xA4, z]
  | .ldyZpx z => [0xB4, z]
  | .ldyAbs a => encodeWord 0xAC a
  | .ldyAbsx a => encodeWord 0xBC a
  | .staZp z => [0x85, z]
  | .staZpx z => [0x95, z]
  | .staAbs a => encodeWord 0x8D a
  | .staAbsx a => encodeWord 0x9D a
  | .staAbsy a => encodeWord 0x99 a
  | .staIndx z => [0x81, z]
  | .staIndy z => [0x91, z]
  | .staIzp z => [0x92, z]
  | .stxZp z => [0x86, z]
  | .stxZpy z => [0x96, z]
  | .stxAbs a => encodeWord 0x8E a
  | .styZp z => [0x84, z]
  | .styZpx z => [0x94, z]
  | .styAbs a => encodeWord 0x8C a
  | .tax => [0xAA]
  | .tay => [0xA8]
  | .txa => [0x8A]
  | .tya => [0x98]
  | .tsx => [0xBA]
  | .txs => [0x9A]
  | .pha => [0x48]
  | .php => [0x08]
  | .pla => [0x68]
  | .plp => [0x28]
  | .andImm v => [0x29, v]
  | .andZp z => [0x25, z]
  | .andZpx z => [0x35, z]
  | .andAbs a => encodeWord 0x2D a
  | .andAbsx a => encodeWord 0x3D a
  | .andAbsy a => encodeWord 0x39 a
  | .andIndx z => [0x21, z]
  | .andIndy z => [0x31, z]
  | .andIzp z => [0x32, z]
  | .oraImm v => [0x09, v]
  | .oraZp z => [0x05, z]
  | .oraZpx z => [0x15, z]
  | .oraAbs a => encodeWord 0x0D a
  | .oraAbsx a => encodeWord 0x1D a
  | .oraAbsy a => encodeWord 0x19 a
  | .oraIndx z => [0x01, z]
  | .oraIndy z => [0x11, z]
  | .oraIzp z => [0x12, z]
  | .eorImm v => [0x49, v]
  | .eorZp z => [0x45, z]
  | .eorZpx z => [0x55, z]
  | .eorAbs a => encodeWord 0x4D a
  | .eorAbsx a => encodeWord 0x5D a
  | .eorAbsy a => encodeWord 0x59 a
  | .eorIndx z => [0x41, z]
  | .eorIndy z => [0x51, z]
  | .eorIzp z => [0x52, z]
  | .bitImm v => [0x89, v]
  | .bitZp z => [0x24, z]
  | .bitZpx z => [0x34, z]
  | .bitAbs a => encodeWord 0x2C a
  | .bitAbsx a => encodeWord 0x3C a
  | .adcImm v => [0x69, v]
  | .adcZp z => [0x65, z]
  | .adcZpx z => [0x75, z]
  | .adcAbs a => encodeWord 0x6D a
  | .adcAbsx a => encodeWord 0x7D a
  | .adcAbsy a => encodeWord 0x79 a
  | .adcIndx z => [0x61, z]
  | .adcIndy z => [0x71, z]
  | .adcIzp z => [0x72, z]
  | .sbcImm v => [0xE9, v]
  | .sbcZp z => [0xE5, z]
  | .sbcZpx z => [0xF5, z]
  | .sbcAbs a => encodeWord 0xED a
  | .sbcAbsx a => encodeWord 0xFD a
  | .sbcAbsy a => encodeWord 0xF9 a
  | .sbcIndx z => [0xE1, z]
  | .sbcIndy z => [0xF1, z]
  | .sbcIzp z => [0xF2, z]
  | .cmpImm v => [0xC9, v]
  | .cmpZp z => [0xC5, z]
  | .cmpZpx z => [0xD5, z]
  | .cmpAbs a => encodeWord 0xCD a
  | .cmpAbsx a => encodeWord 0xDD a
  | .cmpAbsy a => encodeWord 0xD9 a
  | .cmpIndx z => [0xC1, z]
  | .cmpIndy z => [0xD1, z]
  | .cmpIzp z => [0xD2, z]
  | .cpxImm v => [0xE0, v]
  | .cpxZp z => [0xE4, z]
  | .cpxAbs a => encodeWord 0xEC a
  | .cpyImm v => [0xC0, v]
  | .cpyZp z => [0xC4, z]
  | .cpyAbs a => encodeWord 0xCC a
  | .incAcc => [0x1A]
  | .incZp z => [0xE6, z]
  | .incZpx z => [0xF6, z]
  | .incAbs a => encodeWord 0xEE a
  | .incAbsx a => encodeWord 0xFE a
  | .decAcc => [0x3A]
  | .decZp z => [0xC6, z]
  | .decZpx z => [0xD6, z]
  | .decAbs a => encodeWord 0xCE a
  | .decAbsx a => encodeWord 0xDE a
  | .inx => [0xE8]
  | .iny => [0xC8]
  | .dex => [0xCA]
  | .dey => [0x88]
  | .aslAcc => [0x0A]
  | .aslZp z => [0x06, z]
  | .aslZpx z => [0x16, z]
  | .aslAbs a => encodeWord 0x0E a
  | .aslAbsx a => encodeWord 0x1E a
  | .lsrAcc => [0x4A]
  | .lsrZp z => [0x46, z]
  | .lsrZpx z => [0x56, z]
  | .lsrAbs a => encodeWord 0x4E a
  | .lsrAbsx a => encodeWord 0x5E a
  | .rolAcc => [0x2A]
  | .rolZp z => [0x26, z]
  | .rolZpx z => [0x36, z]
  | .rolAbs a => encodeWord 0x2E a
  | .rolAbsx a => encodeWord 0x3E a
  | .rorAcc => [0x6A]
  | .rorZp z => [0x66, z]
  | .rorZpx z => [0x76, z]
  | .rorAbs a => encodeWord 0x6E a
  | .rorAbsx a => encodeWord 0x7E a
  | .jmpAbs a => encodeWord 0x4C a
  | .jmpInd a => encodeWord 0x6C a
  | .jmpIax a => encodeWord 0x7C a
  | .jsr a => encodeWord 0x20 a
  | .rts => [0x60]
  | .bcc off => [0x90, off]
  | .bcs off => [0xB0, off]
  | .beq off => [0xF0, off]
  | .bmi off => [0x30, off]
  | .bne off => [0xD0, off]
  | .bpl off => [0x10, off]
  | .bvc off => [0x50, off]
  | .bvs off => [0x70, off]
  | .clc => [0x18]
  | .sec => [0x38]
  | .cli => [0x58]
  | .sei => [0x78]
  | .cld => [0xD8]
  | .sed => [0xF8]
  | .clv => [0xB8]
  | .nop => [0xEA]
  | .brk => [0x00]
  | .rti => [0x40]
  | .bra off => [0x80, off]
  | .phx => [0xDA]
  | .phy => [0x5A]
  | .plx => [0xFA]
  | .ply => [0x7A]
  | .stzZp z => [0x64, z]
  | .stzZpx z => [0x74, z]
  | .stzAbs a => encodeWord 0x9C a
  | .stzAbsx a => encodeWord 0x9E a
  | .trbZp z => [0x14, z]
  | .trbAbs a => encodeWord 0x1C a
  | .tsbZp z => [0x04, z]
  | .tsbAbs a => encodeWord 0x0C a

/-- The three bytes of a number laid out as the table numbers an instruction's bits: bit 0 is the least significant bit of
the first byte. -/
def bytesOfWord (nbits w : Nat) : List Byte :=
  let w := w % 2 ^ nbits
  [BitVec.ofNat 8 w, BitVec.ofNat 8 (w / 256), BitVec.ofNat 8 (w / 65536)]

/-- The instruction the decoder reads from a word of the opcode table. The table's rows are those of both variants, so the
`CMOS` variant, which has them all, decodes them. -/
def decodeTableWord (nbits w : Nat) : Option Instr :=
  match decode .cmos (bytesOfWord nbits w) with
  | .ok (i, _) => some i
  | .error _ => none

end Sys2Proof
end

