-- ==== Sys2Proof/Machine/State.lean ====
section
/-!
DEFINITION. The state of the machine (10_state.md R20), with the platform parameters a step needs (00_scope.md R9) and the
model's own two fields (`inputs`, `log`); the ways a step can stop; the state after `Reset()`.
-/

namespace Sys2Proof.Machine

open Sys2Proof

/-- The contents of RAM and ROM: address and byte pairs, addresses rising, no entry equal to what an unlisted address reads
as (log entry 1). -/
abbrev Memory := List Host.Cell

/-- The six stored flags of `P` (10_state.md R26). `B` and `U` have no storage (R31, R32). -/
structure Flags where
  c : Bool
  z : Bool
  i : Bool
  d : Bool
  v : Bool
  n : Bool
deriving DecidableEq, Repr

/-- The core's run state (10_state.md R37). -/
inductive Run where
  | uninitialized
  | resetting
  | running
  | halted
deriving DecidableEq, Repr

structure State where
  /-- `VARIANT`, fixed for the session (10_state.md R42). -/
  variant : Variant
  /-- `A` (R21). -/
  a : Byte
  /-- `X` (R22). -/
  x : Byte
  /-- `Y` (R23). -/
  y : Byte
  /-- `S`, an offset into page 1 (R24). -/
  sp : Byte
  /-- `PC`, the address of the next byte to fetch (R25). -/
  pc : Addr
  /-- The stored flags of `P` (R26). -/
  p : Flags
  /-- R37. -/
  run : Run
  /-- The NMI edge latch (R38). -/
  nmiPending : Bool
  /-- The IRQ level (R39). -/
  irqLine : Bool
  /-- The cycle counter, unbounded (R40). -/
  clock : Nat
  /-- The last fatal decode error: opcode and address (R41). -/
  err : Option (Byte × Addr)
  /-- RAM and ROM contents (20_memory.md R50). -/
  mem : Memory
  /-- The memory map: an address in no window is RAM, in several the first counts (R55; log entry 4). -/
  regions : List Region
  /-- The model's own: what devices answer to the coming accesses, oldest first (log entry 6). -/
  inputs : List DeviceReply
  /-- The model's own: every bus access made, newest first (log entry 8). -/
  log : List Access
deriving DecidableEq, Repr

/-- Why a step has no transition. All three are raised by `step` alone, when `run` is not `Running` (60_exceptions.md R284:
"require run == Running"; R285); all three are safe: the hardware makes no step there either (log entry 11). -/
inductive Fault where
  /-- `Step()` before the first `Reset()`. Safe. -/
  | notReset
  /-- `Step()` inside `Reset()`, which no host can call. Safe. -/
  | insideReset
  /-- `Step()` after a fatal decode error, with the error's record. Safe. -/
  | halted (err : Option (Byte × Addr))
deriving DecidableEq, Repr

/-- Why the model has no meaning for an instruction. -/
inductive Refusal where
  /-- Raised by an arm of `exec` for an instruction that has no meaning yet; no arm raises it now. Safe. -/
  | notModelled (mnemonic : String)
deriving DecidableEq, Repr

/-- What a step or an instruction's meaning answers. -/
abbrev Out := Host.Outcome State Fault Refusal

/-- The machine after the first `Reset()` of a session (10_state.md R43, 70_reset_and_hazards.md R300): `S = 0xFD`, `I = 1`,
`D = 0` (CMOS), `run = Running`, seven cycles, the two vector reads made. Chosen by the model, not by the spec: `A`, `X`,
`Y`, `C`, `Z`, `V`, `N` zero (log entry 2), the variant (log entry 3), an all-RAM map (log entry 4), nothing in memory (log
entry 1), hence `PC = 0` (log entry 15). `Sys2Proof.Laws.reset_eq_reset_of_construction` shows that it is `Reset()` of a
constructed session. -/
def State.reset : State where
  variant := .cmos
  a := 0
  x := 0
  y := 0
  sp := 0xFD
  pc := 0
  p := { c := false, z := false, i := true, d := false, v := false, n := false }
  run := .running
  nmiPending := false
  irqLine := false
  clock := 7
  err := none
  mem := []
  regions := []
  inputs := []
  log := [.read 0xFFFD 0, .read 0xFFFC 0]

end Sys2Proof.Machine
end

