-- ==== Sys2Proof/Machine/Flags.lean ====
section
/-!
DEFINITION. The status byte (10_state.md R26 to R36) and every flag and arithmetic computation (43_logic_arith.md R150 to
R153, 44_incdec_shift.md, 48_cmos_extensions.md R246, R247). The adders compute on unbounded integers, as the spec's
pseudocode does (00_scope.md R10), and narrow at the end.
-/

namespace Sys2Proof.Machine

open Sys2Proof

/-! ## The status byte -/

/-- `PImage(b)` (10_state.md R35): `N:V:1:b:D:I:Z:C`. -/
def Flags.image (p : Flags) (b : Bool) : Byte :=
  BitVec.ofNat 8 (128 * p.n.toNat + 64 * p.v.toNat + 32 + 16 * b.toNat + 8 * p.d.toNat + 4 * p.i.toNat + 2 * p.z.toNat
    + p.c.toNat)

/-- `PLoad(v)` (10_state.md R36): bits 5 and 4 are ignored. -/
def Flags.ofByte (v : Byte) : Flags where
  n := v.getLsbD 7
  v := v.getLsbD 6
  d := v.getLsbD 3
  i := v.getLsbD 2
  z := v.getLsbD 1
  c := v.getLsbD 0

/-- The flags inside an exception handler or after `Reset()`: `I <- 1`, and on `CMOS` `D <- 0` (48_cmos_extensions.md R249). -/
def Flags.masked (p : Flags) (variant : Variant) : Flags :=
  { p with i := true, d := match variant with | .cmos => false | .nmos => p.d }

/-! ## Flags from a result -/

/-- `SetNZ(v)` (00_scope.md R12, 10_state.md R28, R34). -/
def Flags.setNZ (p : Flags) (v : Byte) : Flags := { p with z := v == 0, n := v.getLsbD 7 }

/-- `Compare(r, m)` (43_logic_arith.md R153): `V` is not written. -/
def Flags.compare (p : Flags) (r m : Byte) : Flags :=
  { p with c := decide (m.toNat ≤ r.toNat), z := r == m, n := (r - m).getLsbD 7 }

/-- `BIT` with a memory operand (43_logic_arith.md R157): `Z` from `A & M`, `N` and `V` from the operand's bits 7 and 6. -/
def Flags.bitTest (p : Flags) (a m : Byte) : Flags := { p with z := (a &&& m) == 0, n := m.getLsbD 7, v := m.getLsbD 6 }

/-- The `Z` of `BIT #`, `TRB` and `TSB` (48_cmos_extensions.md R243, R238, R239). -/
def Flags.testZ (p : Flags) (a m : Byte) : Flags := { p with z := (a &&& m) == 0 }

/-! ## Addition and subtraction -/

/-- The result of an addition or subtraction: the byte and the four flags it writes. -/
structure Alu where
  r : Byte
  c : Bool
  v : Bool
  n : Bool
  z : Bool
deriving DecidableEq, Repr

/-- The flags after it; `I` and `D` stay. -/
def Flags.ofAlu (p : Flags) (u : Alu) : Flags := { p with c := u.c, v := u.v, n := u.n, z := u.z }

/-- `AddBinary(a, m, c)` (43_logic_arith.md R150), with `SetNZ(r)` (R158). -/
def addBinary (a m : Byte) (c : Bool) : Alu :=
  let s := a.toNat + m.toNat + c.toNat
  let r := BitVec.ofNat 8 s
  { r := r, c := decide (256 ≤ s), v := ((a ^^^ r) &&& (m ^^^ r)).getLsbD 7, n := r.getLsbD 7, z := r == 0 }

/-- The binary subtraction (43_logic_arith.md R150, R159): `AddBinary(a, m ^ 0xFF, c)`. -/
def subBinary (a m : Byte) (c : Bool) : Alu := addBinary a (m ^^^ 0xFF) c

/-- The low digit of a decimal addition with its carry folded in (R151, the two lines for `al`). -/
def decimalLow (a m : Byte) (c : Bool) : Nat :=
  let al := a.toNat % 16 + m.toNat % 16 + c.toNat
  if 10 ≤ al then (al + 6) % 16 + 16 else al

/-- `t` of a decimal addition before the high digit's correction (R151). -/
def decimalMid (a m : Byte) (c : Bool) : Nat := a.toNat / 16 * 16 + m.toNat / 16 * 16 + decimalLow a m c

/-- `t` after the high digit's correction (R151). -/
def decimalSum (a m : Byte) (c : Bool) : Nat :=
  let t := decimalMid a m c
  if 0xA0 ≤ t then t + 0x60 else t

/-- The overflow of a decimal addition, from the intermediate `t` (R151): `((a ^ t) & (m ^ t) & 0x80) != 0`. -/
def decimalOverflow (a m : Byte) (c : Bool) : Bool :=
  let t := BitVec.ofNat 8 (decimalMid a m c)
  ((a ^^^ t) &&& (m ^^^ t)).getLsbD 7

/-- `AdcDecimalNMOS` (43_logic_arith.md R151). -/
def adcDecimalNmos (a m : Byte) (c : Bool) : Alu where
  r := BitVec.ofNat 8 (decimalSum a m c)
  c := decide (0x100 ≤ decimalSum a m c)
  v := decimalOverflow a m c
  n := (BitVec.ofNat 8 (decimalMid a m c)).getLsbD 7
  z := (addBinary a m c).r == 0

/-- `AdcDecimalCMOS` (48_cmos_extensions.md R246): `N` and `Z` describe the decimal result. -/
def adcDecimalCmos (a m : Byte) (c : Bool) : Alu :=
  let r := BitVec.ofNat 8 (decimalSum a m c)
  { r := r, c := decide (0x100 ≤ decimalSum a m c), v := decimalOverflow a m c, n := r.getLsbD 7, z := r == 0 }

/-- The low digit's difference of a decimal subtraction, a signed integer (R152, R247). -/
def decimalLowDiff (a m : Byte) (c : Bool) : Int :=
  ((a.toNat % 16 : Nat) : Int) - ((m.toNat % 16 : Nat) : Int) + ((c.toNat : Nat) : Int) - 1

/-- The decimal-corrected difference of `SbcDecimalNMOS` (43_logic_arith.md R152); `x & 0x0F` is `x mod 16`. -/
def decimalDiffNmos (a m : Byte) (c : Bool) : Byte :=
  let al := decimalLowDiff a m c
  let al := if al < 0 then (al - 6) % 16 - 16 else al
  let t := ((a.toNat / 16 * 16 : Nat) : Int) - ((m.toNat / 16 * 16 : Nat) : Int) + al
  let t := if t < 0 then t - 0x60 else t
  BitVec.ofInt 8 t

/-- The decimal-corrected difference of `SbcDecimalCMOS` (48_cmos_extensions.md R247). -/
def decimalDiffCmos (a m : Byte) (c : Bool) : Byte :=
  let t := (a.toNat : Int) - (m.toNat : Int) + ((c.toNat : Nat) : Int) - 1
  let t := if t < 0 then t - 0x60 else t
  let t := if decimalLowDiff a m c < 0 then t - 6 else t
  BitVec.ofInt 8 t

/-- `SbcDecimalNMOS` (43_logic_arith.md R152): all four flags are those of the binary subtraction. -/
def sbcDecimalNmos (a m : Byte) (c : Bool) : Alu := { subBinary a m c with r := decimalDiffNmos a m c }

/-- `SbcDecimalCMOS` (48_cmos_extensions.md R247): `C` and `V` binary, `N` and `Z` of the decimal result. -/
def sbcDecimalCmos (a m : Byte) (c : Bool) : Alu :=
  let r := decimalDiffCmos a m c
  { subBinary a m c with r := r, n := r.getLsbD 7, z := r == 0 }

/-- `ADC` (43_logic_arith.md R158): binary, or the variant's decimal function when `D = 1` (log entry 13). -/
def adcResult (variant : Variant) (p : Flags) (a m : Byte) : Alu :=
  if p.d then
    match variant with
    | .nmos => adcDecimalNmos a m p.c
    | .cmos => adcDecimalCmos a m p.c
  else addBinary a m p.c

/-- `SBC` (43_logic_arith.md R159). -/
def sbcResult (variant : Variant) (p : Flags) (a m : Byte) : Alu :=
  if p.d then
    match variant with
    | .nmos => sbcDecimalNmos a m p.c
    | .cmos => sbcDecimalCmos a m p.c
  else subBinary a m p.c

/-! ## Increment, decrement, shifts and rotates: the new byte and the flags -/

/-- What a read-modify-write instruction computes from its operand: the byte written back and the flags. -/
structure Rmw where
  r : Byte
  p : Flags
deriving DecidableEq, Repr

/-- 44_incdec_shift.md R171. -/
def incByte (p : Flags) (m : Byte) : Rmw := { r := m + 1, p := p.setNZ (m + 1) }
/-- 44_incdec_shift.md R172. -/
def decByte (p : Flags) (m : Byte) : Rmw := { r := m - 1, p := p.setNZ (m - 1) }
/-- 44_incdec_shift.md R177: `C` is the old bit 7. -/
def aslByte (p : Flags) (m : Byte) : Rmw :=
  let r := m <<< 1
  { r := r, p := { p with c := m.getLsbD 7 }.setNZ r }
/-- 44_incdec_shift.md R178: `C` is the old bit 0. -/
def lsrByte (p : Flags) (m : Byte) : Rmw :=
  let r := m >>> 1
  { r := r, p := { p with c := m.getLsbD 0 }.setNZ r }
/-- 44_incdec_shift.md R179: the old `C` enters at bit 0, `C` is the old bit 7. -/
def rolByte (p : Flags) (m : Byte) : Rmw :=
  let r := (m <<< 1) ||| BitVec.ofNat 8 p.c.toNat
  { r := r, p := { p with c := m.getLsbD 7 }.setNZ r }
/-- 44_incdec_shift.md R180: the old `C` enters at bit 7, `C` is the old bit 0. -/
def rorByte (p : Flags) (m : Byte) : Rmw :=
  let r := (m >>> 1) ||| (BitVec.ofNat 8 p.c.toNat <<< 7)
  { r := r, p := { p with c := m.getLsbD 0 }.setNZ r }
/-- 48_cmos_extensions.md R238: `Z` from `A & M`, the operand's bits under `A` cleared. -/
def trbByte (p : Flags) (a m : Byte) : Rmw := { r := m &&& ~~~a, p := p.testZ a m }
/-- 48_cmos_extensions.md R239: `Z` from `A & M`, the bits of `A` set. -/
def tsbByte (p : Flags) (a m : Byte) : Rmw := { r := m ||| a, p := p.testZ a m }

end Sys2Proof.Machine
end

