-- ==== Sys2Proof/Machine/Ops.lean ====
section
/-!
DEFINITION. The shared operations: memory, the bus, register writes, instruction-byte fetch, the stack, taking an exception
and returning from one, the fatal decode error, and `Reset()`. An operation that touches the bus comes as two functions
where it yields a value: the value, and the state after it.
-/

namespace Sys2Proof.Machine

open Sys2Proof

/-! ## Constants of the spec -/

/-- `RESET_SP` (00_scope.md R9). -/
def resetSp : Byte := 0xFD
/-- `RESET_CYCLES` (00_scope.md R9). -/
def resetCycles : Nat := 7
/-- `INT_CYCLES` (00_scope.md R9); `BRK` takes as many (47_system.md R220). -/
def intCycles : Nat := 7
/-- 60_exceptions.md R272. -/
def nmiVector : Addr := 0xFFFA
/-- 60_exceptions.md R272. -/
def resetVector : Addr := 0xFFFC
/-- Shared by IRQ and `BRK` (60_exceptions.md R272). -/
def irqVector : Addr := 0xFFFE

/-! ## Memory contents -/

/-- What a byte of memory that nothing has written reads as. DESIGN CHOICE, unsafe: log entry 1. -/
def Memory.unlisted : Byte := 0

/-- The byte at an address. -/
def Memory.read : Memory → Nat → Byte
  | [], _ => Memory.unlisted
  | (k, v) :: m, a => if k = a then v else Memory.read m a

/-- Store a byte, keeping the canonical form. -/
def Memory.write : Memory → Nat → Byte → Memory
  | [], a, v => if v = Memory.unlisted then [] else [(a, v)]
  | (k, w) :: m, a, v =>
    if a < k then (if v = Memory.unlisted then (k, w) :: m else (a, v) :: (k, w) :: m)
    else if a = k then (if v = Memory.unlisted then m else (a, v) :: m)
    else (k, w) :: Memory.write m a v

/-- The canonical form: addresses strictly rising and below 65536, no entry equal to what an unlisted address reads as. -/
abbrev Memory.wf (m : Memory) : Prop :=
  m.Pairwise (fun c c' => c.1 < c'.1) ∧ ∀ c ∈ m, c.1 < 65536 ∧ c.2 ≠ Memory.unlisted

/-- Store bytes at consecutive addresses (20_memory.md R54: "Byte `i` of the sequence goes to address `address + i`"). -/
def Memory.writeAll : Memory → Nat → List Byte → Memory
  | m, _, [] => m
  | m, a, v :: vs => Memory.writeAll (Memory.write m a v) (a + 1) vs

/-! ## Register writes -/

namespace State

def setA (s : State) (v : Byte) : State := { s with a := v }
def setX (s : State) (v : Byte) : State := { s with x := v }
def setY (s : State) (v : Byte) : State := { s with y := v }
def setSp (s : State) (v : Byte) : State := { s with sp := v }
def setPc (s : State) (v : Addr) : State := { s with pc := v }
def setP (s : State) (v : Flags) : State := { s with p := v }
def setNmi (s : State) (v : Bool) : State := { s with nmiPending := v }
def setIrq (s : State) (v : Bool) : State := { s with irqLine := v }
/-- Change the run state and the error record together (10_state.md R44 (c)). -/
def setRun (s : State) (r : Run) (e : Option (Byte × Addr)) : State := { s with run := r, err := e }
/-- `n` cycles pass (10_state.md R40). -/
def tick (s : State) (n : Nat) : State := { s with clock := s.clock + n }
/-- `Cycles(total)` (00_scope.md R12) of an operation that made `accesses` bus accesses, one cycle each: "the remaining cycles
of the total" (70_reset_and_hazards.md R315). That they fall after the last access is the model's choice (log entry 9). -/
def finish (s : State) (total accesses : Nat) : State := s.tick (total - accesses)

/-! ## The bus -/

end State

/-- Whether a window holds an address. -/
def regionHolds (r : Region) (a : Addr) : Bool := decide (r.base ≤ a.toNat) && decide (a.toNat < r.base + r.size)

/-- The region an address resolves to, "a pure function of the address" (20_memory.md R55); total, since an address in no
window is RAM (log entry 4). -/
def regionAt (regions : List Region) (a : Addr) : RegionKind :=
  match regions.find? (regionHolds · a) with
  | some r => r.kind
  | none => .ram

/-- The address is no device's. -/
def PlainAt (s : State) (a : Addr) : Prop := ∀ id : Nat, regionAt s.regions a ≠ .device id

/-- No address is a device's. -/
def AllPlain (s : State) : Prop := ∀ a, PlainAt s a

namespace State

/-- What the device answers to the access: the next reply of `inputs`, and after the last a free value (log entry 6). It sees
`clock` as the accesses before it left it (log entry 9). -/
def deviceReply (s : State) (id : Nat) (addr : Addr) (written : Option Byte) : DeviceReply :=
  match s.inputs with
  | r :: _ => r
  | [] => Config.deviceReply id addr written s.clock s.log

/-- What a device does during an access: extra cycles (20_memory.md R70), the three latch operations (60_exceptions.md R266),
stores in the memory behind the bus (20_memory.md R60, R63; log entry 18 on a device's window). It reaches no register: "the
CPU Core exclusively owns the register file and status flags" (00_scope.md R7; log entry 7). -/
def deviceActs (s : State) (r : DeviceReply) : State :=
  { s with
    inputs := s.inputs.tail
    clock := s.clock + r.cost
    nmiPending := s.nmiPending || r.nmi
    irqLine := r.irq.getD s.irqLine
    mem := r.stores.foldl (fun m w => m.write w.1.toNat w.2) s.mem }

/-- Record a bus access. -/
def logged (s : State) (x : Access) : State := { s with log := x :: s.log }

/-- The bus operation `Read(a)` (20_memory.md R51): the byte. -/
def readByte (s : State) (a : Addr) : Byte :=
  match regionAt s.regions a with
  | .device id => (s.deviceReply id a none).value
  | .ram | .rom => s.mem.read a.toNat

/-- The bus operation `Read(a)`: the state after it. -/
def busRead (s : State) (a : Addr) : State :=
  match regionAt s.regions a with
  | .device id => (s.deviceActs (s.deviceReply id a none)).logged (.read a (s.readByte a))
  | .ram | .rom => s.logged (.read a (s.readByte a))

/-- The bus operation `Write(a, v)` (20_memory.md R52). A write to ROM changes nothing (log entry 5). -/
def busWrite (s : State) (a : Addr) (v : Byte) : State :=
  match regionAt s.regions a with
  | .device id => (s.deviceActs (s.deviceReply id a (some v))).logged (.write a v)
  | .rom => s.logged (.write a v)
  | .ram => { s with mem := s.mem.write a.toNat v }.logged (.write a v)

/-- `MemRead(a, 1)`: the state after it. "each bus access advances `clock` by one" (70_reset_and_hazards.md R315). -/
def afterRead (s : State) (a : Addr) : State := (s.busRead a).tick 1

/-- `MemWrite(a, 1, v)`, likewise. -/
def writeByte (s : State) (a : Addr) (v : Byte) : State := (s.busWrite a v).tick 1

/-- Two byte reads, the low byte's address first, as the value `hi:lo` (20_memory.md R53). -/
def readPair (s : State) (lo hi : Addr) : Addr := mkAddr (s.readByte lo) ((s.afterRead lo).readByte hi)

/-- The state after the two reads. -/
def afterPair (s : State) (lo hi : Addr) : State := (s.afterRead lo).afterRead hi

/-- `ReadWord(a)` (20_memory.md R53): the second address wraps modulo 65536. -/
def readWord (s : State) (a : Addr) : Addr := s.readPair a (a + 1)
def afterWord (s : State) (a : Addr) : State := s.afterPair a (a + 1)

/-- An address in page 0, `0x00:z`. -/
def zeroPage (z : Byte) : Addr := mkAddr z 0

/-- `ReadWordZP(z)` (20_memory.md R53): the second address wraps in page 0. -/
def readWordZp (s : State) (z : Byte) : Addr := s.readPair (zeroPage z) (zeroPage (z + 1))
def afterWordZp (s : State) (z : Byte) : State := s.afterPair (zeroPage z) (zeroPage (z + 1))

/-! ## Instruction bytes -/

/-- `Fetch8()` (30_encoding.md R84): the state after it; the byte is `s.readByte s.pc`. -/
def afterFetch (s : State) : State := (s.afterRead s.pc).setPc (s.pc + 1)

/-- The state after `n` fetches. -/
def afterFetches : Nat → State → State
  | 0, s => s
  | n + 1, s => afterFetches n s.afterFetch

/-- The bytes `n` fetches return, in order. -/
def fetchedBytes : Nat → State → List Byte
  | 0, _ => []
  | n + 1, s => s.readByte s.pc :: fetchedBytes n s.afterFetch

/-! ## The stack -/

/-- The stack location an offset designates, `0x01:S` (10_state.md R24). -/
def stackAddr (sp : Byte) : Addr := mkAddr sp 1

/-- `Push8(v)` (20_memory.md R62). -/
def push (s : State) (v : Byte) : State := (s.writeByte (stackAddr s.sp) v).setSp (s.sp - 1)

/-- `Push8(w[15:8]); Push8(w[7:0])` (20_memory.md R62). -/
def pushWord (s : State) (w : Addr) : State := (s.push (hiByte w)).push (loByte w)

/-- `Pull8()` (20_memory.md R62): the byte. -/
def pulled (s : State) : Byte := s.readByte (stackAddr (s.sp + 1))

/-- `Pull8()`: the state after it. -/
def afterPull (s : State) : State := (s.setSp (s.sp + 1)).afterRead (stackAddr (s.sp + 1))

/-- `lo <- Pull8(); hi <- Pull8(); hi:lo` (20_memory.md R62). -/
def pulledWord (s : State) : Addr := mkAddr s.pulled s.afterPull.pulled
def afterPullWord (s : State) : State := s.afterPull.afterPull

/-! ## Exceptions -/

/-- The part of an exception entry that all three kinds share, up to the vector (47_system.md R220, 60_exceptions.md R269):
push `ret` high byte first, then the status image with the old flags, then mask. -/
def saveAndMask (s : State) (ret : Addr) (b : Bool) : State :=
  let t := (s.pushWord ret).push (s.p.image b)
  t.setP (s.p.masked s.variant)

/-- `PC <- ReadWord(vector)`. -/
def jumpThrough (s : State) (vector : Addr) : State := (s.afterWord vector).setPc (s.readWord vector)

/-- `InterruptEntry(NMI)` (60_exceptions.md R269): the latch is cleared before the vector is read. -/
def nmiEntry (s : State) : State :=
  (((s.saveAndMask s.pc false).setNmi false).jumpThrough nmiVector).finish intCycles 5

/-- `InterruptEntry(IRQ)` (60_exceptions.md R269): `irq_line` is not touched (R271). -/
def irqEntry (s : State) : State := ((s.saveAndMask s.pc false).jumpThrough irqVector).finish intCycles 5

/-- The entry `BRK` makes (47_system.md R220): `PC` addresses the byte after the opcode, the saved address skips one more. -/
def brkEntry (s : State) : State := ((s.saveAndMask (s.pc + 1) true).jumpThrough irqVector).finish intCycles 6

/-- The return `RTI` makes (47_system.md R221): status, then `PC`, nothing added. Its six cycles are the instruction's. -/
def exceptionReturn (s : State) : State :=
  let t := s.afterPull.setP (Flags.ofByte s.pulled)
  t.afterPullWord.setPc t.pulledWord

/-- `raise DecodeError(op, pc)` (60_exceptions.md R261): `PC` back at the opcode, the error recorded, the core halted.
The one cycle it takes is that of the opcode fetch (70_reset_and_hazards.md R313). -/
def decodeError (s : State) (op : Byte) (pc : Addr) : State := (s.setPc pc).setRun .halted (some (op, pc))

/-! ## Reset -/

/-- `Reset()` (70_reset_and_hazards.md R300), accepted in every run state (R301). -/
def doReset (s : State) : State :=
  let t := ((((s.setRun .resetting none).setNmi false).setP (s.p.masked s.variant)).setSp resetSp)
  ((t.jumpThrough resetVector).finish resetCycles 2).setRun .running none

end State

end Sys2Proof.Machine
end

