-- ==== Sys2Proof/Machine/Operands.lean ====
section
/-!
DEFINITION. The addressing-mode resolver (40_addressing_modes.md R100 to R119). The operand bytes are in the instruction
already (log entry 12), so resolving reads only the pointers of the indirect modes; `PC` addresses the next instruction
throughout.
-/

namespace Sys2Proof.Machine

open Sys2Proof

/-- Whether two addresses lie on different pages: "page crossing" (40_addressing_modes.md R117). -/
def pagesDiffer (a b : Addr) : Bool := hiByte a != hiByte b

/-- `sext_16(v)` (00_scope.md R13). -/
def sext16 (v : Byte) : Addr := v.signExtend 16

/-- `zext_16(v)` (00_scope.md R13). -/
def zext16 (v : Byte) : Addr := v.setWidth 16

/-! ## Memory operands -/

/-- The modes whose operand is a byte in memory (40_addressing_modes.md R100, `Mem(ea)`). -/
inductive MemMode where
  | zp (z : Byte)
  | zpx (z : Byte)
  | zpy (z : Byte)
  | abs (a : Addr)
  | absx (a : Addr)
  | absy (a : Addr)
  | indx (z : Byte)
  | indy (z : Byte)
  | izp (z : Byte)
deriving DecidableEq, Repr

namespace MemMode

/-- The effective address (40_addressing_modes.md R104 to R109, R111, R112, R115). -/
def ea (m : MemMode) (s : State) : Addr :=
  match m with
  | .zp z => State.zeroPage z
  | .zpx z => State.zeroPage (z + s.x)
  | .zpy z => State.zeroPage (z + s.y)
  | .abs a => a
  | .absx a => a + zext16 s.x
  | .absy a => a + zext16 s.y
  | .indx z => s.readWordZp (z + s.x)
  | .indy z => s.readWordZp z + zext16 s.y
  | .izp z => s.readWordZp z

/-- Whether the indexing crossed a page (R108, R109, R112); false in every other mode. -/
def crossed (m : MemMode) (s : State) : Bool :=
  match m with
  | .absx a => pagesDiffer (a + zext16 s.x) a
  | .absy a => pagesDiffer (a + zext16 s.y) a
  | .indy z => pagesDiffer (s.readWordZp z + zext16 s.y) (s.readWordZp z)
  | .zp _ | .zpx _ | .zpy _ | .abs _ | .indx _ | .izp _ => false

/-- The state after the mode's pointer reads; a mode without a pointer reads nothing. -/
def after (m : MemMode) (s : State) : State :=
  match m with
  | .indx z => s.afterWordZp (z + s.x)
  | .indy z => s.afterWordZp z
  | .izp z => s.afterWordZp z
  | .zp _ | .zpx _ | .zpy _ | .abs _ | .absx _ | .absy _ => s

/-- The bus accesses of an instruction that reads or writes its operand once: opcode, operand bytes, pointer bytes, data. -/
def accesses (m : MemMode) : Nat :=
  match m with
  | .zp _ | .zpx _ | .zpy _ => 3
  | .abs _ | .absx _ | .absy _ => 4
  | .indx _ | .indy _ | .izp _ => 5

end MemMode

/-! ## The operand of a read instruction -/

/-- An immediate byte or a byte in memory (40_addressing_modes.md R118, `LoadOperand`). -/
inductive Src where
  | imm (v : Byte)
  | mem (m : MemMode)
deriving DecidableEq, Repr

namespace Src

/-- `LoadOperand(opnd)`: the byte. -/
def value (src : Src) (s : State) : Byte :=
  match src with
  | .imm v => v
  | .mem m => (m.after s).readByte (m.ea s)

/-- `LoadOperand(opnd)`: the state after the pointer reads and the one data read. -/
def after (src : Src) (s : State) : State :=
  match src with
  | .imm _ => s
  | .mem m => (m.after s).afterRead (m.ea s)

/-- The page-cross cycle of a read instruction (40_addressing_modes.md R117, 70_reset_and_hazards.md R310): every read
instruction in `absx`, `absy` or `indy` owes it, and no other mode crosses. -/
def extra (src : Src) (s : State) : Nat :=
  match src with
  | .imm _ => 0
  | .mem m => (m.crossed s).toNat

/-- The bus accesses of a read instruction. -/
def accesses (src : Src) : Nat :=
  match src with
  | .imm _ => 2
  | .mem m => m.accesses

end Src

/-! ## The operand of a read-modify-write instruction -/

/-- The accumulator or a byte in memory. -/
inductive Dst where
  | acc
  | mem (m : MemMode)
deriving DecidableEq, Repr

namespace Dst

/-- `LoadOperand(opnd)`: the byte. -/
def value (d : Dst) (s : State) : Byte :=
  match d with
  | .acc => s.a
  | .mem m => (m.after s).readByte (m.ea s)

/-- Load, change, write back on the same operand (44_incdec_shift.md R170): one read, then the flags, then one write. -/
def update (d : Dst) (s : State) (u : Rmw) : State :=
  match d with
  | .acc => (s.setP u.p).setA u.r
  | .mem m => (((m.after s).afterRead (m.ea s)).setP u.p).writeByte (m.ea s) u.r

/-- The bus accesses of a read-modify-write instruction. -/
def accesses (d : Dst) : Nat :=
  match d with
  | .acc => 1
  | .mem m => m.accesses + 1

end Dst

/-! ## Jump targets -/

/-- `Resolve(rel)` (40_addressing_modes.md R113): `PC` is already past the operand. -/
def relTarget (off : Byte) (s : State) : Addr := s.pc + sext16 off

/-- Where the high byte of an indirect jump's pointer is (40_addressing_modes.md R110): on `NMOS` only the low byte of the
pointer is incremented. -/
def indHigh (variant : Variant) (ptr : Addr) : Addr :=
  match variant with
  | .nmos => mkAddr (loByte ptr + 1) (hiByte ptr)
  | .cmos => ptr + 1

/-- `Resolve(ind)` (R110): the target, and the state after the two pointer reads. -/
def indTarget (ptr : Addr) (s : State) : Addr := s.readPair ptr (indHigh s.variant ptr)
def afterInd (ptr : Addr) (s : State) : State := s.afterPair ptr (indHigh s.variant ptr)

/-- `Resolve(iax)` (R116). -/
def iaxTarget (base : Addr) (s : State) : Addr := s.readWord (base + zext16 s.x)
def afterIax (base : Addr) (s : State) : State := s.afterWord (base + zext16 s.x)

end Sys2Proof.Machine
end

