-- ==== Sys2Proof/Machine/ControlFlow.lean ====
section
/-!
DEFINITION. Jumps, subroutine calls and branches (45_control_flow.md R190 to R202, 48_cmos_extensions.md R244, R245). A
meaning starts with `PC` past the instruction (log entry 12) and names the cycles of the whole instruction and its bus
accesses, fetches included (`finish`).
-/

namespace Sys2Proof.Machine

open Sys2Proof

/-- The branch rule (R193, 70_reset_and_hazards.md R311): 2 cycles when not taken, 3 when taken, 4 when taken to another page
than the next instruction's. -/
def branch (cond : Bool) (off : Byte) (s : State) : State :=
  match cond with
  | true => (s.setPc (relTarget off s)).finish (3 + (pagesDiffer (relTarget off s) s.pc).toNat) 2
  | false => s.finish 2 2

/-- `JMP (abs)`: 5 cycles on `NMOS`, 6 on `CMOS` (48_cmos_extensions.md R250). -/
def jmpIndCycles (s : State) : Nat :=
  match s.variant with
  | .nmos => 5
  | .cmos => 6

/-- `JMP a`, opcode 4C (R190). -/
def execJmpAbs (a : Addr) (s : State) : Out :=
  .next ((s.setPc a).finish 3 3)
/-- `JMP (a)`, opcode 6C (R190, R245). -/
def execJmpInd (a : Addr) (s : State) : Out :=
  .next (((afterInd a s).setPc (indTarget a s)).finish (jmpIndCycles s) 5)
/-- `JMP (a,X)`, opcode 7C (R244, R190). -/
def execJmpIax (a : Addr) (s : State) : Out :=
  .next (((afterIax a s).setPc (iaxTarget a s)).finish 6 5)
/-- `JSR a`, opcode 20 (R191). -/
def execJsr (a : Addr) (s : State) : Out :=
  .next (((s.pushWord (s.pc - 1)).setPc a).finish 6 5)
/-- `RTS`, opcode 60 (R192). -/
def execRts (s : State) : Out :=
  .next ((s.afterPullWord.setPc (s.pulledWord + 1)).finish 6 3)
/-- `BCC off`, opcode 90 (R194). -/
def execBcc (off : Byte) (s : State) : Out :=
  .next (branch (!s.p.c) off s)
/-- `BCS off`, opcode B0 (R195). -/
def execBcs (off : Byte) (s : State) : Out :=
  .next (branch s.p.c off s)
/-- `BEQ off`, opcode F0 (R196). -/
def execBeq (off : Byte) (s : State) : Out :=
  .next (branch s.p.z off s)
/-- `BMI off`, opcode 30 (R197). -/
def execBmi (off : Byte) (s : State) : Out :=
  .next (branch s.p.n off s)
/-- `BNE off`, opcode D0 (R198). -/
def execBne (off : Byte) (s : State) : Out :=
  .next (branch (!s.p.z) off s)
/-- `BPL off`, opcode 10 (R199). -/
def execBpl (off : Byte) (s : State) : Out :=
  .next (branch (!s.p.n) off s)
/-- `BVC off`, opcode 50 (R200). -/
def execBvc (off : Byte) (s : State) : Out :=
  .next (branch (!s.p.v) off s)
/-- `BVS off`, opcode 70 (R201). -/
def execBvs (off : Byte) (s : State) : Out :=
  .next (branch s.p.v off s)

end Sys2Proof.Machine
end

