-- ==== Sys2Proof/Machine/IncDecShift.lean ====
section
/-!
DEFINITION. Increment, decrement, shift and rotate instructions (44_incdec_shift.md R170 to R180, 48_cmos_extensions.md
R241, R242, R250). A meaning starts with `PC` past the instruction (log entry 12) and names the cycles of the whole
instruction and its bus accesses, fetches included (`finish`).
-/

namespace Sys2Proof.Machine

open Sys2Proof

/-- The read-modify-write template (R170): load, compute from the old flags, write back once. -/
def rmw (d : Dst) (f : Flags → Byte → Rmw) (cycles : Nat) (s : State) : State :=
  (d.update s (f s.p (d.value s))).finish cycles d.accesses

/-- `ASL LSR ROL ROR absx`: 7 cycles on `NMOS`; on `CMOS` 6, plus 1 when crossed (48_cmos_extensions.md R250). -/
def shiftAbsxCycles (a : Addr) (s : State) : Nat :=
  match s.variant with
  | .nmos => 7
  | .cmos => 6 + ((MemMode.absx a).crossed s).toNat

/-- `INC A`, opcode 1A (R241, R171). -/
def execIncAcc (s : State) : Out :=
  .next (rmw .acc incByte 2 s)
/-- `INC z`, opcode E6 (R171). -/
def execIncZp (z : Byte) (s : State) : Out :=
  .next (rmw (.mem (.zp z)) incByte 5 s)
/-- `INC z,X`, opcode F6 (R171). -/
def execIncZpx (z : Byte) (s : State) : Out :=
  .next (rmw (.mem (.zpx z)) incByte 6 s)
/-- `INC a`, opcode EE (R171). -/
def execIncAbs (a : Addr) (s : State) : Out :=
  .next (rmw (.mem (.abs a)) incByte 6 s)
/-- `INC a,X`, opcode FE (R171). -/
def execIncAbsx (a : Addr) (s : State) : Out :=
  .next (rmw (.mem (.absx a)) incByte 7 s)
/-- `DEC A`, opcode 3A (R242, R172). -/
def execDecAcc (s : State) : Out :=
  .next (rmw .acc decByte 2 s)
/-- `DEC z`, opcode C6 (R172). -/
def execDecZp (z : Byte) (s : State) : Out :=
  .next (rmw (.mem (.zp z)) decByte 5 s)
/-- `DEC z,X`, opcode D6 (R172). -/
def execDecZpx (z : Byte) (s : State) : Out :=
  .next (rmw (.mem (.zpx z)) decByte 6 s)
/-- `DEC a`, opcode CE (R172). -/
def execDecAbs (a : Addr) (s : State) : Out :=
  .next (rmw (.mem (.abs a)) decByte 6 s)
/-- `DEC a,X`, opcode DE (R172). -/
def execDecAbsx (a : Addr) (s : State) : Out :=
  .next (rmw (.mem (.absx a)) decByte 7 s)
/-- `INX`, opcode E8 (R173). -/
def execInx (s : State) : Out :=
  .next (((s.setX (s.x + 1)).setP (s.p.setNZ (s.x + 1))).finish 2 1)
/-- `INY`, opcode C8 (R174). -/
def execIny (s : State) : Out :=
  .next (((s.setY (s.y + 1)).setP (s.p.setNZ (s.y + 1))).finish 2 1)
/-- `DEX`, opcode CA (R175). -/
def execDex (s : State) : Out :=
  .next (((s.setX (s.x - 1)).setP (s.p.setNZ (s.x - 1))).finish 2 1)
/-- `DEY`, opcode 88 (R176). -/
def execDey (s : State) : Out :=
  .next (((s.setY (s.y - 1)).setP (s.p.setNZ (s.y - 1))).finish 2 1)
/-- `ASL A`, opcode 0A (R177). -/
def execAslAcc (s : State) : Out :=
  .next (rmw .acc aslByte 2 s)
/-- `ASL z`, opcode 06 (R177). -/
def execAslZp (z : Byte) (s : State) : Out :=
  .next (rmw (.mem (.zp z)) aslByte 5 s)
/-- `ASL z,X`, opcode 16 (R177). -/
def execAslZpx (z : Byte) (s : State) : Out :=
  .next (rmw (.mem (.zpx z)) aslByte 6 s)
/-- `ASL a`, opcode 0E (R177). -/
def execAslAbs (a : Addr) (s : State) : Out :=
  .next (rmw (.mem (.abs a)) aslByte 6 s)
/-- `ASL a,X`, opcode 1E (R177, R250). -/
def execAslAbsx (a : Addr) (s : State) : Out :=
  .next (rmw (.mem (.absx a)) aslByte (shiftAbsxCycles a s) s)
/-- `LSR A`, opcode 4A (R178). -/
def execLsrAcc (s : State) : Out :=
  .next (rmw .acc lsrByte 2 s)
/-- `LSR z`, opcode 46 (R178). -/
def execLsrZp (z : Byte) (s : State) : Out :=
  .next (rmw (.mem (.zp z)) lsrByte 5 s)
/-- `LSR z,X`, opcode 56 (R178). -/
def execLsrZpx (z : Byte) (s : State) : Out :=
  .next (rmw (.mem (.zpx z)) lsrByte 6 s)
/-- `LSR a`, opcode 4E (R178). -/
def execLsrAbs (a : Addr) (s : State) : Out :=
  .next (rmw (.mem (.abs a)) lsrByte 6 s)
/-- `LSR a,X`, opcode 5E (R178, R250). -/
def execLsrAbsx (a : Addr) (s : State) : Out :=
  .next (rmw (.mem (.absx a)) lsrByte (shiftAbsxCycles a s) s)
/-- `ROL A`, opcode 2A (R179). -/
def execRolAcc (s : State) : Out :=
  .next (rmw .acc rolByte 2 s)
/-- `ROL z`, opcode 26 (R179). -/
def execRolZp (z : Byte) (s : State) : Out :=
  .next (rmw (.mem (.zp z)) rolByte 5 s)
/-- `ROL z,X`, opcode 36 (R179). -/
def execRolZpx (z : Byte) (s : State) : Out :=
  .next (rmw (.mem (.zpx z)) rolByte 6 s)
/-- `ROL a`, opcode 2E (R179). -/
def execRolAbs (a : Addr) (s : State) : Out :=
  .next (rmw (.mem (.abs a)) rolByte 6 s)
/-- `ROL a,X`, opcode 3E (R179, R250). -/
def execRolAbsx (a : Addr) (s : State) : Out :=
  .next (rmw (.mem (.absx a)) rolByte (shiftAbsxCycles a s) s)
/-- `ROR A`, opcode 6A (R180). -/
def execRorAcc (s : State) : Out :=
  .next (rmw .acc rorByte 2 s)
/-- `ROR z`, opcode 66 (R180). -/
def execRorZp (z : Byte) (s : State) : Out :=
  .next (rmw (.mem (.zp z)) rorByte 5 s)
/-- `ROR z,X`, opcode 76 (R180). -/
def execRorZpx (z : Byte) (s : State) : Out :=
  .next (rmw (.mem (.zpx z)) rorByte 6 s)
/-- `ROR a`, opcode 6E (R180). -/
def execRorAbs (a : Addr) (s : State) : Out :=
  .next (rmw (.mem (.abs a)) rorByte 6 s)
/-- `ROR a,X`, opcode 7E (R180, R250). -/
def execRorAbsx (a : Addr) (s : State) : Out :=
  .next (rmw (.mem (.absx a)) rorByte (shiftAbsxCycles a s) s)

end Sys2Proof.Machine
end

