-- ==== Sys2Proof/Machine/LoadStore.lean ====
section
/-!
DEFINITION. Loads, stores and register transfers (41_load_store_transfer.md R120 to R132). A meaning starts with `PC` past
the instruction (log entry 12) and names the cycles of the whole instruction and its bus accesses, fetches included
(`finish`).
-/

namespace Sys2Proof.Machine

open Sys2Proof

/-- `v <- LoadOperand(opnd); A <- v; SetNZ(v)` (R121). -/
def loadA (src : Src) (cycles : Nat) (s : State) : State :=
  (((src.after s).setA (src.value s)).setP (s.p.setNZ (src.value s))).finish (cycles + src.extra s) src.accesses

/-- `v <- LoadOperand(opnd); X <- v; SetNZ(v)` (R122). -/
def loadX (src : Src) (cycles : Nat) (s : State) : State :=
  (((src.after s).setX (src.value s)).setP (s.p.setNZ (src.value s))).finish (cycles + src.extra s) src.accesses

/-- `v <- LoadOperand(opnd); Y <- v; SetNZ(v)` (R123). -/
def loadY (src : Src) (cycles : Nat) (s : State) : State :=
  (((src.after s).setY (src.value s)).setP (s.p.setNZ (src.value s))).finish (cycles + src.extra s) src.accesses

/-- `StoreOperand(opnd, v)` (R124 to R126, 48_cmos_extensions.md R237): the operand address is written, never read, and no
page-cross cycle is owed (40_addressing_modes.md R117). -/
def store (m : MemMode) (v : Byte) (cycles : Nat) (s : State) : State :=
  ((m.after s).writeByte (m.ea s) v).finish cycles m.accesses

/-- `LDA #v`, opcode A9 (R121). -/
def execLdaImm (v : Byte) (s : State) : Out :=
  .next (loadA (.imm v) 2 s)
/-- `LDA z`, opcode A5 (R121). -/
def execLdaZp (z : Byte) (s : State) : Out :=
  .next (loadA (.mem (.zp z)) 3 s)
/-- `LDA z,X`, opcode B5 (R121). -/
def execLdaZpx (z : Byte) (s : State) : Out :=
  .next (loadA (.mem (.zpx z)) 4 s)
/-- `LDA a`, opcode AD (R121). -/
def execLdaAbs (a : Addr) (s : State) : Out :=
  .next (loadA (.mem (.abs a)) 4 s)
/-- `LDA a,X`, opcode BD (R121). -/
def execLdaAbsx (a : Addr) (s : State) : Out :=
  .next (loadA (.mem (.absx a)) 4 s)
/-- `LDA a,Y`, opcode B9 (R121). -/
def execLdaAbsy (a : Addr) (s : State) : Out :=
  .next (loadA (.mem (.absy a)) 4 s)
/-- `LDA (z,X)`, opcode A1 (R121). -/
def execLdaIndx (z : Byte) (s : State) : Out :=
  .next (loadA (.mem (.indx z)) 6 s)
/-- `LDA (z),Y`, opcode B1 (R121). -/
def execLdaIndy (z : Byte) (s : State) : Out :=
  .next (loadA (.mem (.indy z)) 5 s)
/-- `LDA (z)`, opcode B2 (R121, R231). -/
def execLdaIzp (z : Byte) (s : State) : Out :=
  .next (loadA (.mem (.izp z)) 5 s)
/-- `LDX #v`, opcode A2 (R122). -/
def execLdxImm (v : Byte) (s : State) : Out :=
  .next (loadX (.imm v) 2 s)
/-- `LDX z`, opcode A6 (R122). -/
def execLdxZp (z : Byte) (s : State) : Out :=
  .next (loadX (.mem (.zp z)) 3 s)
/-- `LDX z,Y`, opcode B6 (R122). -/
def execLdxZpy (z : Byte) (s : State) : Out :=
  .next (loadX (.mem (.zpy z)) 4 s)
/-- `LDX a`, opcode AE (R122). -/
def execLdxAbs (a : Addr) (s : State) : Out :=
  .next (loadX (.mem (.abs a)) 4 s)
/-- `LDX a,Y`, opcode BE (R122). -/
def execLdxAbsy (a : Addr) (s : State) : Out :=
  .next (loadX (.mem (.absy a)) 4 s)
/-- `LDY #v`, opcode A0 (R123). -/
def execLdyImm (v : Byte) (s : State) : Out :=
  .next (loadY (.imm v) 2 s)
/-- `LDY z`, opcode A4 (R123). -/
def execLdyZp (z : Byte) (s : State) : Out :=
  .next (loadY (.mem (.zp z)) 3 s)
/-- `LDY z,X`, opcode B4 (R123). -/
def execLdyZpx (z : Byte) (s : State) : Out :=
  .next (loadY (.mem (.zpx z)) 4 s)
/-- `LDY a`, opcode AC (R123). -/
def execLdyAbs (a : Addr) (s : State) : Out :=
  .next (loadY (.mem (.abs a)) 4 s)
/-- `LDY a,X`, opcode BC (R123). -/
def execLdyAbsx (a : Addr) (s : State) : Out :=
  .next (loadY (.mem (.absx a)) 4 s)
/-- `STA z`, opcode 85 (R124). -/
def execStaZp (z : Byte) (s : State) : Out :=
  .next (store (.zp z) s.a 3 s)
/-- `STA z,X`, opcode 95 (R124). -/
def execStaZpx (z : Byte) (s : State) : Out :=
  .next (store (.zpx z) s.a 4 s)
/-- `STA a`, opcode 8D (R124). -/
def execStaAbs (a : Addr) (s : State) : Out :=
  .next (store (.abs a) s.a 4 s)
/-- `STA a,X`, opcode 9D (R124). -/
def execStaAbsx (a : Addr) (s : State) : Out :=
  .next (store (.absx a) s.a 5 s)
/-- `STA a,Y`, opcode 99 (R124). -/
def execStaAbsy (a : Addr) (s : State) : Out :=
  .next (store (.absy a) s.a 5 s)
/-- `STA (z,X)`, opcode 81 (R124). -/
def execStaIndx (z : Byte) (s : State) : Out :=
  .next (store (.indx z) s.a 6 s)
/-- `STA (z),Y`, opcode 91 (R124). -/
def execStaIndy (z : Byte) (s : State) : Out :=
  .next (store (.indy z) s.a 6 s)
/-- `STA (z)`, opcode 92 (R124, R231). -/
def execStaIzp (z : Byte) (s : State) : Out :=
  .next (store (.izp z) s.a 5 s)
/-- `STX z`, opcode 86 (R125). -/
def execStxZp (z : Byte) (s : State) : Out :=
  .next (store (.zp z) s.x 3 s)
/-- `STX z,Y`, opcode 96 (R125). -/
def execStxZpy (z : Byte) (s : State) : Out :=
  .next (store (.zpy z) s.x 4 s)
/-- `STX a`, opcode 8E (R125). -/
def execStxAbs (a : Addr) (s : State) : Out :=
  .next (store (.abs a) s.x 4 s)
/-- `STY z`, opcode 84 (R126). -/
def execStyZp (z : Byte) (s : State) : Out :=
  .next (store (.zp z) s.y 3 s)
/-- `STY z,X`, opcode 94 (R126). -/
def execStyZpx (z : Byte) (s : State) : Out :=
  .next (store (.zpx z) s.y 4 s)
/-- `STY a`, opcode 8C (R126). -/
def execStyAbs (a : Addr) (s : State) : Out :=
  .next (store (.abs a) s.y 4 s)
/-- `TAX`, opcode AA (R127). -/
def execTax (s : State) : Out :=
  .next (((s.setX s.a).setP (s.p.setNZ s.a)).finish 2 1)
/-- `TAY`, opcode A8 (R128). -/
def execTay (s : State) : Out :=
  .next (((s.setY s.a).setP (s.p.setNZ s.a)).finish 2 1)
/-- `TXA`, opcode 8A (R129). -/
def execTxa (s : State) : Out :=
  .next (((s.setA s.x).setP (s.p.setNZ s.x)).finish 2 1)
/-- `TYA`, opcode 98 (R130). -/
def execTya (s : State) : Out :=
  .next (((s.setA s.y).setP (s.p.setNZ s.y)).finish 2 1)
/-- `TSX`, opcode BA (R131). -/
def execTsx (s : State) : Out :=
  .next (((s.setX s.sp).setP (s.p.setNZ s.sp)).finish 2 1)
/-- `TXS`, opcode 9A (R132). -/
def execTxs (s : State) : Out :=
  .next ((s.setSp s.x).finish 2 1)

end Sys2Proof.Machine
end

