-- ==== Sys2Proof/Machine/Cmos.lean ====
section
/-!
DEFINITION. The instructions only the CMOS variant has (48_cmos_extensions.md R232 to R239). The decoder yields them in
that variant alone (log entry 12). A meaning starts with `PC` past the instruction (log entry 12) and names the cycles of
the whole instruction and its bus accesses, fetches included (`finish`).
-/

namespace Sys2Proof.Machine

open Sys2Proof

/-- `BRA off`, opcode 80 (R232). -/
def execBra (off : Byte) (s : State) : Out :=
  .next (branch true off s)
/-- `PHX`, opcode DA (R233). -/
def execPhx (s : State) : Out :=
  .next ((s.push s.x).finish 3 2)
/-- `PHY`, opcode 5A (R234). -/
def execPhy (s : State) : Out :=
  .next ((s.push s.y).finish 3 2)
/-- `PLX`, opcode FA (R235). -/
def execPlx (s : State) : Out :=
  .next (((s.afterPull.setX s.pulled).setP (s.p.setNZ s.pulled)).finish 4 2)
/-- `PLY`, opcode 7A (R236). -/
def execPly (s : State) : Out :=
  .next (((s.afterPull.setY s.pulled).setP (s.p.setNZ s.pulled)).finish 4 2)
/-- `STZ z`, opcode 64 (R237). -/
def execStzZp (z : Byte) (s : State) : Out :=
  .next (store (.zp z) 0 3 s)
/-- `STZ z,X`, opcode 74 (R237). -/
def execStzZpx (z : Byte) (s : State) : Out :=
  .next (store (.zpx z) 0 4 s)
/-- `STZ a`, opcode 9C (R237). -/
def execStzAbs (a : Addr) (s : State) : Out :=
  .next (store (.abs a) 0 4 s)
/-- `STZ a,X`, opcode 9E (R237). -/
def execStzAbsx (a : Addr) (s : State) : Out :=
  .next (store (.absx a) 0 5 s)
/-- `TRB z`, opcode 14 (R238). -/
def execTrbZp (z : Byte) (s : State) : Out :=
  .next (rmw (.mem (.zp z)) (fun p m => trbByte p s.a m) 5 s)
/-- `TRB a`, opcode 1C (R238). -/
def execTrbAbs (a : Addr) (s : State) : Out :=
  .next (rmw (.mem (.abs a)) (fun p m => trbByte p s.a m) 6 s)
/-- `TSB z`, opcode 04 (R239). -/
def execTsbZp (z : Byte) (s : State) : Out :=
  .next (rmw (.mem (.zp z)) (fun p m => tsbByte p s.a m) 5 s)
/-- `TSB a`, opcode 0C (R239). -/
def execTsbAbs (a : Addr) (s : State) : Out :=
  .next (rmw (.mem (.abs a)) (fun p m => tsbByte p s.a m) 6 s)

end Sys2Proof.Machine
end

