-- ==== Sys2Proof/Machine/FlagOps.lean ====
section
/-!
DEFINITION. Flag instructions and NOP (46_flags_nop.md R210 to R217). A meaning starts with `PC` past the instruction (log
entry 12) and names the cycles of the whole instruction and its bus accesses, fetches included (`finish`).
-/

namespace Sys2Proof.Machine

open Sys2Proof

/-- `CLC`, opcode 18 (R210). -/
def execClc (s : State) : Out :=
  .next ((s.setP { s.p with c := false }).finish 2 1)
/-- `SEC`, opcode 38 (R211). -/
def execSec (s : State) : Out :=
  .next ((s.setP { s.p with c := true }).finish 2 1)
/-- `CLI`, opcode 58 (R212). -/
def execCli (s : State) : Out :=
  .next ((s.setP { s.p with i := false }).finish 2 1)
/-- `SEI`, opcode 78 (R213). -/
def execSei (s : State) : Out :=
  .next ((s.setP { s.p with i := true }).finish 2 1)
/-- `CLD`, opcode D8 (R214). -/
def execCld (s : State) : Out :=
  .next ((s.setP { s.p with d := false }).finish 2 1)
/-- `SED`, opcode F8 (R215). -/
def execSed (s : State) : Out :=
  .next ((s.setP { s.p with d := true }).finish 2 1)
/-- `CLV`, opcode B8 (R216). -/
def execClv (s : State) : Out :=
  .next ((s.setP { s.p with v := false }).finish 2 1)
/-- `NOP`, opcode EA (R217). -/
def execNop (s : State) : Out :=
  .next (s.finish 2 1)

end Sys2Proof.Machine
end

