-- ==== Sys2Proof/Machine/LogicArith.lean ====
section
/-!
DEFINITION. Logic, arithmetic and compare instructions (43_logic_arith.md R150 to R162, 48_cmos_extensions.md R231, R243).
A meaning starts with `PC` past the instruction (log entry 12) and names the cycles of the whole instruction and its bus
accesses, fetches included (`finish`).
-/

namespace Sys2Proof.Machine

open Sys2Proof

/-- `m <- LoadOperand(opnd); A <- A op m; SetNZ(A)` (R154 to R156). -/
def logicA (op : Byte → Byte → Byte) (src : Src) (cycles : Nat) (s : State) : State :=
  let r := op s.a (src.value s)
  (((src.after s).setA r).setP (s.p.setNZ r)).finish (cycles + src.extra s) src.accesses

/-- `BIT` with a memory operand (R157): flags only. -/
def bitMem (src : Src) (cycles : Nat) (s : State) : State :=
  ((src.after s).setP (s.p.bitTest s.a (src.value s))).finish (cycles + src.extra s) src.accesses

/-- `BIT #v` (48_cmos_extensions.md R243): `Z` only. -/
def bitImm (v : Byte) (cycles : Nat) (s : State) : State := (s.setP (s.p.testZ s.a v)).finish cycles 2

/-- The cycle `ADC` and `SBC` take more on `CMOS` when `D = 1` (70_reset_and_hazards.md R312). -/
def decimalExtra (s : State) : Nat :=
  match s.variant with
  | .cmos => s.p.d.toNat
  | .nmos => 0

/-- `ADC`, `SBC` (R158, R159): `A`, `C`, `V`, `N`, `Z` from the adder. -/
def arithA (f : Variant → Flags → Byte → Byte → Alu) (src : Src) (cycles : Nat) (s : State) : State :=
  let u := f s.variant s.p s.a (src.value s)
  (((src.after s).setA u.r).setP (s.p.ofAlu u)).finish (cycles + src.extra s + decimalExtra s) src.accesses

/-- `m <- LoadOperand(opnd); Compare(r, m)` (R153, R160 to R162): flags only. -/
def compareReg (r : Byte) (src : Src) (cycles : Nat) (s : State) : State :=
  ((src.after s).setP (s.p.compare r (src.value s))).finish (cycles + src.extra s) src.accesses

/-- `AND #v`, opcode 29 (R154). -/
def execAndImm (v : Byte) (s : State) : Out :=
  .next (logicA (· &&& ·) (.imm v) 2 s)
/-- `AND z`, opcode 25 (R154). -/
def execAndZp (z : Byte) (s : State) : Out :=
  .next (logicA (· &&& ·) (.mem (.zp z)) 3 s)
/-- `AND z,X`, opcode 35 (R154). -/
def execAndZpx (z : Byte) (s : State) : Out :=
  .next (logicA (· &&& ·) (.mem (.zpx z)) 4 s)
/-- `AND a`, opcode 2D (R154). -/
def execAndAbs (a : Addr) (s : State) : Out :=
  .next (logicA (· &&& ·) (.mem (.abs a)) 4 s)
/-- `AND a,X`, opcode 3D (R154). -/
def execAndAbsx (a : Addr) (s : State) : Out :=
  .next (logicA (· &&& ·) (.mem (.absx a)) 4 s)
/-- `AND a,Y`, opcode 39 (R154). -/
def execAndAbsy (a : Addr) (s : State) : Out :=
  .next (logicA (· &&& ·) (.mem (.absy a)) 4 s)
/-- `AND (z,X)`, opcode 21 (R154). -/
def execAndIndx (z : Byte) (s : State) : Out :=
  .next (logicA (· &&& ·) (.mem (.indx z)) 6 s)
/-- `AND (z),Y`, opcode 31 (R154). -/
def execAndIndy (z : Byte) (s : State) : Out :=
  .next (logicA (· &&& ·) (.mem (.indy z)) 5 s)
/-- `AND (z)`, opcode 32 (R154, R231). -/
def execAndIzp (z : Byte) (s : State) : Out :=
  .next (logicA (· &&& ·) (.mem (.izp z)) 5 s)
/-- `ORA #v`, opcode 09 (R155). -/
def execOraImm (v : Byte) (s : State) : Out :=
  .next (logicA (· ||| ·) (.imm v) 2 s)
/-- `ORA z`, opcode 05 (R155). -/
def execOraZp (z : Byte) (s : State) : Out :=
  .next (logicA (· ||| ·) (.mem (.zp z)) 3 s)
/-- `ORA z,X`, opcode 15 (R155). -/
def execOraZpx (z : Byte) (s : State) : Out :=
  .next (logicA (· ||| ·) (.mem (.zpx z)) 4 s)
/-- `ORA a`, opcode 0D (R155). -/
def execOraAbs (a : Addr) (s : State) : Out :=
  .next (logicA (· ||| ·) (.mem (.abs a)) 4 s)
/-- `ORA a,X`, opcode 1D (R155). -/
def execOraAbsx (a : Addr) (s : State) : Out :=
  .next (logicA (· ||| ·) (.mem (.absx a)) 4 s)
/-- `ORA a,Y`, opcode 19 (R155). -/
def execOraAbsy (a : Addr) (s : State) : Out :=
  .next (logicA (· ||| ·) (.mem (.absy a)) 4 s)
/-- `ORA (z,X)`, opcode 01 (R155). -/
def execOraIndx (z : Byte) (s : State) : Out :=
  .next (logicA (· ||| ·) (.mem (.indx z)) 6 s)
/-- `ORA (z),Y`, opcode 11 (R155). -/
def execOraIndy (z : Byte) (s : State) : Out :=
  .next (logicA (· ||| ·) (.mem (.indy z)) 5 s)
/-- `ORA (z)`, opcode 12 (R155, R231). -/
def execOraIzp (z : Byte) (s : State) : Out :=
  .next (logicA (· ||| ·) (.mem (.izp z)) 5 s)
/-- `EOR #v`, opcode 49 (R156). -/
def execEorImm (v : Byte) (s : State) : Out :=
  .next (logicA (· ^^^ ·) (.imm v) 2 s)
/-- `EOR z`, opcode 45 (R156). -/
def execEorZp (z : Byte) (s : State) : Out :=
  .next (logicA (· ^^^ ·) (.mem (.zp z)) 3 s)
/-- `EOR z,X`, opcode 55 (R156). -/
def execEorZpx (z : Byte) (s : State) : Out :=
  .next (logicA (· ^^^ ·) (.mem (.zpx z)) 4 s)
/-- `EOR a`, opcode 4D (R156). -/
def execEorAbs (a : Addr) (s : State) : Out :=
  .next (logicA (· ^^^ ·) (.mem (.abs a)) 4 s)
/-- `EOR a,X`, opcode 5D (R156). -/
def execEorAbsx (a : Addr) (s : State) : Out :=
  .next (logicA (· ^^^ ·) (.mem (.absx a)) 4 s)
/-- `EOR a,Y`, opcode 59 (R156). -/
def execEorAbsy (a : Addr) (s : State) : Out :=
  .next (logicA (· ^^^ ·) (.mem (.absy a)) 4 s)
/-- `EOR (z,X)`, opcode 41 (R156). -/
def execEorIndx (z : Byte) (s : State) : Out :=
  .next (logicA (· ^^^ ·) (.mem (.indx z)) 6 s)
/-- `EOR (z),Y`, opcode 51 (R156). -/
def execEorIndy (z : Byte) (s : State) : Out :=
  .next (logicA (· ^^^ ·) (.mem (.indy z)) 5 s)
/-- `EOR (z)`, opcode 52 (R156, R231). -/
def execEorIzp (z : Byte) (s : State) : Out :=
  .next (logicA (· ^^^ ·) (.mem (.izp z)) 5 s)
/-- `BIT #v`, opcode 89 (R243, R157). -/
def execBitImm (v : Byte) (s : State) : Out :=
  .next (bitImm v 2 s)
/-- `BIT z`, opcode 24 (R157). -/
def execBitZp (z : Byte) (s : State) : Out :=
  .next (bitMem (.mem (.zp z)) 3 s)
/-- `BIT z,X`, opcode 34 (R157, R243). -/
def execBitZpx (z : Byte) (s : State) : Out :=
  .next (bitMem (.mem (.zpx z)) 4 s)
/-- `BIT a`, opcode 2C (R157). -/
def execBitAbs (a : Addr) (s : State) : Out :=
  .next (bitMem (.mem (.abs a)) 4 s)
/-- `BIT a,X`, opcode 3C (R157, R243). -/
def execBitAbsx (a : Addr) (s : State) : Out :=
  .next (bitMem (.mem (.absx a)) 4 s)
/-- `ADC #v`, opcode 69 (R158). -/
def execAdcImm (v : Byte) (s : State) : Out :=
  .next (arithA adcResult (.imm v) 2 s)
/-- `ADC z`, opcode 65 (R158). -/
def execAdcZp (z : Byte) (s : State) : Out :=
  .next (arithA adcResult (.mem (.zp z)) 3 s)
/-- `ADC z,X`, opcode 75 (R158). -/
def execAdcZpx (z : Byte) (s : State) : Out :=
  .next (arithA adcResult (.mem (.zpx z)) 4 s)
/-- `ADC a`, opcode 6D (R158). -/
def execAdcAbs (a : Addr) (s : State) : Out :=
  .next (arithA adcResult (.mem (.abs a)) 4 s)
/-- `ADC a,X`, opcode 7D (R158). -/
def execAdcAbsx (a : Addr) (s : State) : Out :=
  .next (arithA adcResult (.mem (.absx a)) 4 s)
/-- `ADC a,Y`, opcode 79 (R158). -/
def execAdcAbsy (a : Addr) (s : State) : Out :=
  .next (arithA adcResult (.mem (.absy a)) 4 s)
/-- `ADC (z,X)`, opcode 61 (R158). -/
def execAdcIndx (z : Byte) (s : State) : Out :=
  .next (arithA adcResult (.mem (.indx z)) 6 s)
/-- `ADC (z),Y`, opcode 71 (R158). -/
def execAdcIndy (z : Byte) (s : State) : Out :=
  .next (arithA adcResult (.mem (.indy z)) 5 s)
/-- `ADC (z)`, opcode 72 (R158, R231). -/
def execAdcIzp (z : Byte) (s : State) : Out :=
  .next (arithA adcResult (.mem (.izp z)) 5 s)
/-- `SBC #v`, opcode E9 (R159). -/
def execSbcImm (v : Byte) (s : State) : Out :=
  .next (arithA sbcResult (.imm v) 2 s)
/-- `SBC z`, opcode E5 (R159). -/
def execSbcZp (z : Byte) (s : State) : Out :=
  .next (arithA sbcResult (.mem (.zp z)) 3 s)
/-- `SBC z,X`, opcode F5 (R159). -/
def execSbcZpx (z : Byte) (s : State) : Out :=
  .next (arithA sbcResult (.mem (.zpx z)) 4 s)
/-- `SBC a`, opcode ED (R159). -/
def execSbcAbs (a : Addr) (s : State) : Out :=
  .next (arithA sbcResult (.mem (.abs a)) 4 s)
/-- `SBC a,X`, opcode FD (R159). -/
def execSbcAbsx (a : Addr) (s : State) : Out :=
  .next (arithA sbcResult (.mem (.absx a)) 4 s)
/-- `SBC a,Y`, opcode F9 (R159). -/
def execSbcAbsy (a : Addr) (s : State) : Out :=
  .next (arithA sbcResult (.mem (.absy a)) 4 s)
/-- `SBC (z,X)`, opcode E1 (R159). -/
def execSbcIndx (z : Byte) (s : State) : Out :=
  .next (arithA sbcResult (.mem (.indx z)) 6 s)
/-- `SBC (z),Y`, opcode F1 (R159). -/
def execSbcIndy (z : Byte) (s : State) : Out :=
  .next (arithA sbcResult (.mem (.indy z)) 5 s)
/-- `SBC (z)`, opcode F2 (R159, R231). -/
def execSbcIzp (z : Byte) (s : State) : Out :=
  .next (arithA sbcResult (.mem (.izp z)) 5 s)
/-- `CMP #v`, opcode C9 (R160). -/
def execCmpImm (v : Byte) (s : State) : Out :=
  .next (compareReg s.a (.imm v) 2 s)
/-- `CMP z`, opcode C5 (R160). -/
def execCmpZp (z : Byte) (s : State) : Out :=
  .next (compareReg s.a (.mem (.zp z)) 3 s)
/-- `CMP z,X`, opcode D5 (R160). -/
def execCmpZpx (z : Byte) (s : State) : Out :=
  .next (compareReg s.a (.mem (.zpx z)) 4 s)
/-- `CMP a`, opcode CD (R160). -/
def execCmpAbs (a : Addr) (s : State) : Out :=
  .next (compareReg s.a (.mem (.abs a)) 4 s)
/-- `CMP a,X`, opcode DD (R160). -/
def execCmpAbsx (a : Addr) (s : State) : Out :=
  .next (compareReg s.a (.mem (.absx a)) 4 s)
/-- `CMP a,Y`, opcode D9 (R160). -/
def execCmpAbsy (a : Addr) (s : State) : Out :=
  .next (compareReg s.a (.mem (.absy a)) 4 s)
/-- `CMP (z,X)`, opcode C1 (R160). -/
def execCmpIndx (z : Byte) (s : State) : Out :=
  .next (compareReg s.a (.mem (.indx z)) 6 s)
/-- `CMP (z),Y`, opcode D1 (R160). -/
def execCmpIndy (z : Byte) (s : State) : Out :=
  .next (compareReg s.a (.mem (.indy z)) 5 s)
/-- `CMP (z)`, opcode D2 (R160, R231). -/
def execCmpIzp (z : Byte) (s : State) : Out :=
  .next (compareReg s.a (.mem (.izp z)) 5 s)
/-- `CPX #v`, opcode E0 (R161). -/
def execCpxImm (v : Byte) (s : State) : Out :=
  .next (compareReg s.x (.imm v) 2 s)
/-- `CPX z`, opcode E4 (R161). -/
def execCpxZp (z : Byte) (s : State) : Out :=
  .next (compareReg s.x (.mem (.zp z)) 3 s)
/-- `CPX a`, opcode EC (R161). -/
def execCpxAbs (a : Addr) (s : State) : Out :=
  .next (compareReg s.x (.mem (.abs a)) 4 s)
/-- `CPY #v`, opcode C0 (R162). -/
def execCpyImm (v : Byte) (s : State) : Out :=
  .next (compareReg s.y (.imm v) 2 s)
/-- `CPY z`, opcode C4 (R162). -/
def execCpyZp (z : Byte) (s : State) : Out :=
  .next (compareReg s.y (.mem (.zp z)) 3 s)
/-- `CPY a`, opcode CC (R162). -/
def execCpyAbs (a : Addr) (s : State) : Out :=
  .next (compareReg s.y (.mem (.abs a)) 4 s)

end Sys2Proof.Machine
end

