-- ==== Sys2Proof/Machine/Stack.lean ====
section
/-!
DEFINITION. The stack instructions of both variants (42_stack.md R140 to R143). A meaning starts with `PC` past the
instruction (log entry 12) and names the cycles of the whole instruction and its bus accesses, fetches included
(`finish`).
-/

namespace Sys2Proof.Machine

open Sys2Proof

/-- `PHA`, opcode 48 (R140). -/
def execPha (s : State) : Out :=
  .next ((s.push s.a).finish 3 2)
/-- `PHP`, opcode 08 (R141). -/
def execPhp (s : State) : Out :=
  .next ((s.push (s.p.image true)).finish 3 2)
/-- `PLA`, opcode 68 (R142). -/
def execPla (s : State) : Out :=
  .next (((s.afterPull.setA s.pulled).setP (s.p.setNZ s.pulled)).finish 4 2)
/-- `PLP`, opcode 28 (R143). -/
def execPlp (s : State) : Out :=
  .next ((s.afterPull.setP (Flags.ofByte s.pulled)).finish 4 2)

end Sys2Proof.Machine
end

