-- ==== Sys2Proof/Machine/System.lean ====
section
/-!
DEFINITION. BRK and RTI (47_system.md R220, R221). A meaning starts with `PC` past the instruction (log entry 12) and
names the cycles of the whole instruction and its bus accesses, fetches included (`finish`).
-/

namespace Sys2Proof.Machine

open Sys2Proof

/-- `BRK`, opcode 00 (R220). -/
def execBrk (s : State) : Out :=
  .next (s.brkEntry)
/-- `RTI`, opcode 40 (R221). -/
def execRti (s : State) : Out :=
  .next (s.exceptionReturn.finish 6 4)

end Sys2Proof.Machine
end

