-- ==== Sys2Proof/Machine/Dispatch.lean ====
section
/-!
DEFINITION. One arm for each constructor of Instr: which meaning an instruction has. `exec` runs an instruction in the state
after its bytes were fetched: `PC` addresses the next instruction.
-/

namespace Sys2Proof.Machine

open Sys2Proof

def exec (i : Instr) (s : State) : Host.Outcome State Fault Refusal :=
  match i with
  -- Loads, stores, transfers (41_load_store_transfer.md)
  | .ldaImm v => Sys2Proof.Machine.execLdaImm v s
  | .ldaZp z => Sys2Proof.Machine.execLdaZp z s
  | .ldaZpx z => Sys2Proof.Machine.execLdaZpx z s
  | .ldaAbs a => Sys2Proof.Machine.execLdaAbs a s
  | .ldaAbsx a => Sys2Proof.Machine.execLdaAbsx a s
  | .ldaAbsy a => Sys2Proof.Machine.execLdaAbsy a s
  | .ldaIndx z => Sys2Proof.Machine.execLdaIndx z s
  | .ldaIndy z => Sys2Proof.Machine.execLdaIndy z s
  | .ldaIzp z => Sys2Proof.Machine.execLdaIzp z s
  | .ldxImm v => Sys2Proof.Machine.execLdxImm v s
  | .ldxZp z => Sys2Proof.Machine.execLdxZp z s
  | .ldxZpy z => Sys2Proof.Machine.execLdxZpy z s
  | .ldxAbs a => Sys2Proof.Machine.execLdxAbs a s
  | .ldxAbsy a => Sys2Proof.Machine.execLdxAbsy a s
  | .ldyImm v => Sys2Proof.Machine.execLdyImm v s
  | .ldyZp z => Sys2Proof.Machine.execLdyZp z s
  | .ldyZpx z => Sys2Proof.Machine.execLdyZpx z s
  | .ldyAbs a => Sys2Proof.Machine.execLdyAbs a s
  | .ldyAbsx a => Sys2Proof.Machine.execLdyAbsx a s
  | .staZp z => Sys2Proof.Machine.execStaZp z s
  | .staZpx z => Sys2Proof.Machine.execStaZpx z s
  | .staAbs a => Sys2Proof.Machine.execStaAbs a s
  | .staAbsx a => Sys2Proof.Machine.execStaAbsx a s
  | .staAbsy a => Sys2Proof.Machine.execStaAbsy a s
  | .staIndx z => Sys2Proof.Machine.execStaIndx z s
  | .staIndy z => Sys2Proof.Machine.execStaIndy z s
  | .staIzp z => Sys2Proof.Machine.execStaIzp z s
  | .stxZp z => Sys2Proof.Machine.execStxZp z s
  | .stxZpy z => Sys2Proof.Machine.execStxZpy z s
  | .stxAbs a => Sys2Proof.Machine.execStxAbs a s
  | .styZp z => Sys2Proof.Machine.execStyZp z s
  | .styZpx z => Sys2Proof.Machine.execStyZpx z s
  | .styAbs a => Sys2Proof.Machine.execStyAbs a s
  | .tax => Sys2Proof.Machine.execTax s
  | .tay => Sys2Proof.Machine.execTay s
  | .txa => Sys2Proof.Machine.execTxa s
  | .tya => Sys2Proof.Machine.execTya s
  | .tsx => Sys2Proof.Machine.execTsx s
  | .txs => Sys2Proof.Machine.execTxs s
  -- Stack (42_stack.md)
  | .pha => Sys2Proof.Machine.execPha s
  | .php => Sys2Proof.Machine.execPhp s
  | .pla => Sys2Proof.Machine.execPla s
  | .plp => Sys2Proof.Machine.execPlp s
  -- Logic, arithmetic, compare (43_logic_arith.md)
  | .andImm v => Sys2Proof.Machine.execAndImm v s
  | .andZp z => Sys2Proof.Machine.execAndZp z s
  | .andZpx z => Sys2Proof.Machine.execAndZpx z s
  | .andAbs a => Sys2Proof.Machine.execAndAbs a s
  | .andAbsx a => Sys2Proof.Machine.execAndAbsx a s
  | .andAbsy a => Sys2Proof.Machine.execAndAbsy a s
  | .andIndx z => Sys2Proof.Machine.execAndIndx z s
  | .andIndy z => Sys2Proof.Machine.execAndIndy z s
  | .andIzp z => Sys2Proof.Machine.execAndIzp z s
  | .oraImm v => Sys2Proof.Machine.execOraImm v s
  | .oraZp z => Sys2Proof.Machine.execOraZp z s
  | .oraZpx z => Sys2Proof.Machine.execOraZpx z s
  | .oraAbs a => Sys2Proof.Machine.execOraAbs a s
  | .oraAbsx a => Sys2Proof.Machine.execOraAbsx a s
  | .oraAbsy a => Sys2Proof.Machine.execOraAbsy a s
  | .oraIndx z => Sys2Proof.Machine.execOraIndx z s
  | .oraIndy z => Sys2Proof.Machine.execOraIndy z s
  | .oraIzp z => Sys2Proof.Machine.execOraIzp z s
  | .eorImm v => Sys2Proof.Machine.execEorImm v s
  | .eorZp z => Sys2Proof.Machine.execEorZp z s
  | .eorZpx z => Sys2Proof.Machine.execEorZpx z s
  | .eorAbs a => Sys2Proof.Machine.execEorAbs a s
  | .eorAbsx a => Sys2Proof.Machine.execEorAbsx a s
  | .eorAbsy a => Sys2Proof.Machine.execEorAbsy a s
  | .eorIndx z => Sys2Proof.Machine.execEorIndx z s
  | .eorIndy z => Sys2Proof.Machine.execEorIndy z s
  | .eorIzp z => Sys2Proof.Machine.execEorIzp z s
  | .bitImm v => Sys2Proof.Machine.execBitImm v s
  | .bitZp z => Sys2Proof.Machine.execBitZp z s
  | .bitZpx z => Sys2Proof.Machine.execBitZpx z s
  | .bitAbs a => Sys2Proof.Machine.execBitAbs a s
  | .bitAbsx a => Sys2Proof.Machine.execBitAbsx a s
  | .adcImm v => Sys2Proof.Machine.execAdcImm v s
  | .adcZp z => Sys2Proof.Machine.execAdcZp z s
  | .adcZpx z => Sys2Proof.Machine.execAdcZpx z s
  | .adcAbs a => Sys2Proof.Machine.execAdcAbs a s
  | .adcAbsx a => Sys2Proof.Machine.execAdcAbsx a s
  | .adcAbsy a => Sys2Proof.Machine.execAdcAbsy a s
  | .adcIndx z => Sys2Proof.Machine.execAdcIndx z s
  | .adcIndy z => Sys2Proof.Machine.execAdcIndy z s
  | .adcIzp z => Sys2Proof.Machine.execAdcIzp z s
  | .sbcImm v => Sys2Proof.Machine.execSbcImm v s
  | .sbcZp z => Sys2Proof.Machine.execSbcZp z s
  | .sbcZpx z => Sys2Proof.Machine.execSbcZpx z s
  | .sbcAbs a => Sys2Proof.Machine.execSbcAbs a s
  | .sbcAbsx a => Sys2Proof.Machine.execSbcAbsx a s
  | .sbcAbsy a => Sys2Proof.Machine.execSbcAbsy a s
  | .sbcIndx z => Sys2Proof.Machine.execSbcIndx z s
  | .sbcIndy z => Sys2Proof.Machine.execSbcIndy z s
  | .sbcIzp z => Sys2Proof.Machine.execSbcIzp z s
  | .cmpImm v => Sys2Proof.Machine.execCmpImm v s
  | .cmpZp z => Sys2Proof.Machine.execCmpZp z s
  | .cmpZpx z => Sys2Proof.Machine.execCmpZpx z s
  | .cmpAbs a => Sys2Proof.Machine.execCmpAbs a s
  | .cmpAbsx a => Sys2Proof.Machine.execCmpAbsx a s
  | .cmpAbsy a => Sys2Proof.Machine.execCmpAbsy a s
  | .cmpIndx z => Sys2Proof.Machine.execCmpIndx z s
  | .cmpIndy z => Sys2Proof.Machine.execCmpIndy z s
  | .cmpIzp z => Sys2Proof.Machine.execCmpIzp z s
  | .cpxImm v => Sys2Proof.Machine.execCpxImm v s
  | .cpxZp z => Sys2Proof.Machine.execCpxZp z s
  | .cpxAbs a => Sys2Proof.Machine.execCpxAbs a s
  | .cpyImm v => Sys2Proof.Machine.execCpyImm v s
  | .cpyZp z => Sys2Proof.Machine.execCpyZp z s
  | .cpyAbs a => Sys2Proof.Machine.execCpyAbs a s
  -- Increment, decrement, shift, rotate (44_incdec_shift.md)
  | .incAcc => Sys2Proof.Machine.execIncAcc s
  | .incZp z => Sys2Proof.Machine.execIncZp z s
  | .incZpx z => Sys2Proof.Machine.execIncZpx z s
  | .incAbs a => Sys2Proof.Machine.execIncAbs a s
  | .incAbsx a => Sys2Proof.Machine.execIncAbsx a s
  | .decAcc => Sys2Proof.Machine.execDecAcc s
  | .decZp z => Sys2Proof.Machine.execDecZp z s
  | .decZpx z => Sys2Proof.Machine.execDecZpx z s
  | .decAbs a => Sys2Proof.Machine.execDecAbs a s
  | .decAbsx a => Sys2Proof.Machine.execDecAbsx a s
  | .inx => Sys2Proof.Machine.execInx s
  | .iny => Sys2Proof.Machine.execIny s
  | .dex => Sys2Proof.Machine.execDex s
  | .dey => Sys2Proof.Machine.execDey s
  | .aslAcc => Sys2Proof.Machine.execAslAcc s
  | .aslZp z => Sys2Proof.Machine.execAslZp z s
  | .aslZpx z => Sys2Proof.Machine.execAslZpx z s
  | .aslAbs a => Sys2Proof.Machine.execAslAbs a s
  | .aslAbsx a => Sys2Proof.Machine.execAslAbsx a s
  | .lsrAcc => Sys2Proof.Machine.execLsrAcc s
  | .lsrZp z => Sys2Proof.Machine.execLsrZp z s
  | .lsrZpx z => Sys2Proof.Machine.execLsrZpx z s
  | .lsrAbs a => Sys2Proof.Machine.execLsrAbs a s
  | .lsrAbsx a => Sys2Proof.Machine.execLsrAbsx a s
  | .rolAcc => Sys2Proof.Machine.execRolAcc s
  | .rolZp z => Sys2Proof.Machine.execRolZp z s
  | .rolZpx z => Sys2Proof.Machine.execRolZpx z s
  | .rolAbs a => Sys2Proof.Machine.execRolAbs a s
  | .rolAbsx a => Sys2Proof.Machine.execRolAbsx a s
  | .rorAcc => Sys2Proof.Machine.execRorAcc s
  | .rorZp z => Sys2Proof.Machine.execRorZp z s
  | .rorZpx z => Sys2Proof.Machine.execRorZpx z s
  | .rorAbs a => Sys2Proof.Machine.execRorAbs a s
  | .rorAbsx a => Sys2Proof.Machine.execRorAbsx a s
  -- Jumps, calls, branches (45_control_flow.md)
  | .jmpAbs a => Sys2Proof.Machine.execJmpAbs a s
  | .jmpInd a => Sys2Proof.Machine.execJmpInd a s
  | .jmpIax a => Sys2Proof.Machine.execJmpIax a s
  | .jsr a => Sys2Proof.Machine.execJsr a s
  | .rts => Sys2Proof.Machine.execRts s
  | .bcc off => Sys2Proof.Machine.execBcc off s
  | .bcs off => Sys2Proof.Machine.execBcs off s
  | .beq off => Sys2Proof.Machine.execBeq off s
  | .bmi off => Sys2Proof.Machine.execBmi off s
  | .bne off => Sys2Proof.Machine.execBne off s
  | .bpl off => Sys2Proof.Machine.execBpl off s
  | .bvc off => Sys2Proof.Machine.execBvc off s
  | .bvs off => Sys2Proof.Machine.execBvs off s
  -- Flags and NOP (46_flags_nop.md)
  | .clc => Sys2Proof.Machine.execClc s
  | .sec => Sys2Proof.Machine.execSec s
  | .cli => Sys2Proof.Machine.execCli s
  | .sei => Sys2Proof.Machine.execSei s
  | .cld => Sys2Proof.Machine.execCld s
  | .sed => Sys2Proof.Machine.execSed s
  | .clv => Sys2Proof.Machine.execClv s
  | .nop => Sys2Proof.Machine.execNop s
  -- System (47_system.md)
  | .brk => Sys2Proof.Machine.execBrk s
  | .rti => Sys2Proof.Machine.execRti s
  -- Instructions of the CMOS variant only (48_cmos_extensions.md)
  | .bra off => Sys2Proof.Machine.execBra off s
  | .phx => Sys2Proof.Machine.execPhx s
  | .phy => Sys2Proof.Machine.execPhy s
  | .plx => Sys2Proof.Machine.execPlx s
  | .ply => Sys2Proof.Machine.execPly s
  | .stzZp z => Sys2Proof.Machine.execStzZp z s
  | .stzZpx z => Sys2Proof.Machine.execStzZpx z s
  | .stzAbs a => Sys2Proof.Machine.execStzAbs a s
  | .stzAbsx a => Sys2Proof.Machine.execStzAbsx a s
  | .trbZp z => Sys2Proof.Machine.execTrbZp z s
  | .trbAbs a => Sys2Proof.Machine.execTrbAbs a s
  | .tsbZp z => Sys2Proof.Machine.execTsbZp z s
  | .tsbAbs a => Sys2Proof.Machine.execTsbAbs a s

end Sys2Proof.Machine
end

