-- ==== Sys2Proof/Machine/Fetch.lean ====
section
/-!
DEFINITION. Fetching and decoding the instruction at `PC` through the bus (60_exceptions.md R284, 30_encoding.md R84, R86):
the opcode byte first, then exactly the operand bytes its row has.
-/

namespace Sys2Proof.Machine

open Sys2Proof

/-- What the fetch finds: an instruction and the state after its last byte, or an illegal opcode and the state after that one
byte. -/
inductive Fetched where
  | legal (i : Instr) (s : State)
  | illegal (op : Byte) (s : State)

namespace State

/-- `Fetch16()` (30_encoding.md R84): the operand word; the state after it is `s.afterFetch.afterFetch`. -/
def fetchedWord (s : State) : Addr := mkAddr (s.readByte s.pc) (s.afterFetch.readByte s.afterFetch.pc)

/-- The opcode fetch, `Decode(VARIANT, op)` and the operand fetches (60_exceptions.md R284, 30_encoding.md R84). -/
def fetchInstr (s : State) : Fetched :=
  let op := s.readByte s.pc
  let t := s.afterFetch
  match lookupOpcode s.variant op with
  | none => .illegal op t
  | some (.i1 i) => .legal i t
  | some (.i2 build) => .legal (build (t.readByte t.pc)) t.afterFetch
  | some (.i3 build) => .legal (build t.fetchedWord) t.afterFetch.afterFetch

/-- Store the bytes of a word at `pc` and let the next step fetch them there (log entry 15): plain memory at the three
addresses, the core running, no interrupt to service first. -/
def placeInstr (s : State) (bytes : List Byte) : State :=
  let at3 : List Addr := [s.pc, s.pc + 1, s.pc + 2]
  let plain : Region → Bool := fun r => at3.all (fun a => !regionHolds r a) || r.kind == .ram || r.kind == .rom
  { s with
    mem := (at3.zip bytes).foldl (fun m x => m.write x.1.toNat x.2) s.mem
    regions := s.regions.filter plain
    run := .running
    err := none
    nmiPending := false
    irqLine := s.irqLine && s.p.i }

end State

end Sys2Proof.Machine
end

