-- ==== Sys2Proof/Machine/Boundary.lean ====
section
/-!
DEFINITION. What `Step()` does when the core runs (60_exceptions.md R284): service one pending interrupt, or run one
instruction, or take the fatal decode error.
-/

namespace Sys2Proof.Machine

open Sys2Proof

/-- Whether an IRQ is recognised at this boundary: the line is high and `I = 0` (60_exceptions.md R267). -/
def State.irqTaken (s : State) : Bool := s.irqLine && !s.p.i

/-- The instruction part of `Step()`. -/
def stepInstr (s : State) : Out :=
  match s.fetchInstr with
  | .legal i t => exec i t
  | .illegal op t => .next (t.decodeError op s.pc)

/-- An instruction boundary of a running core: NMI before IRQ before an instruction (60_exceptions.md R268, R284). -/
def boundary (s : State) : Out :=
  if s.nmiPending then .next s.nmiEntry
  else if s.irqTaken then .next s.irqEntry
  else stepInstr s

end Sys2Proof.Machine
end

