-- ==== Sys2Proof/Machine/Step.lean ====
section
/-!
DEFINITION. `Step()` (60_exceptions.md R284): service one pending interrupt, or run one instruction, or take the fatal decode
error.
-/

namespace Sys2Proof.Machine

open Sys2Proof

/-- `Step()`, enabled only when `run = Running` (R284, R285). -/
def step (s : State) : Host.Outcome State Fault Refusal :=
  match s.run with
  | .running => boundary s
  | .uninitialized => .fault .notReset
  | .resetting => .fault .insideReset
  | .halted => .fault (.halted s.err)

/-- The state whose next step fetches and runs the instruction of a table word (log entry 15). -/
def State.withFetchWord (s : State) (nbits w : Nat) : State := s.placeInstr (bytesOfWord nbits w)

end Sys2Proof.Machine
end

