-- ==== Sys2Proof/Machine/Session.lean ====
section
/-!
DEFINITION. What the host does (00_scope.md R8, 20_memory.md R71): constructing a session, the three latch operations,
`WriteRange`, `Read`, `Write`; `Reset()` is `State.doReset`. The host applies them between steps (log entry 14).
-/

namespace Sys2Proof.Machine

open Sys2Proof

namespace State

/-- `AssertNMI()` (60_exceptions.md R264). -/
def assertNMI (s : State) : State := s.setNmi true

/-- `AssertIRQ()` (60_exceptions.md R265). -/
def assertIRQ (s : State) : State := s.setIrq true

/-- `ClearIRQ()` (60_exceptions.md R265). -/
def clearIRQ (s : State) : State := s.setIrq false

/-- `WriteRange(address, bytes)` (20_memory.md R54): refused when it runs past 0xFFFF. It is no access of the core. Log entry
18: it stores the bytes in ROM as in RAM (DEDUCED); at an address in a device window it stores the byte in the memory behind
the window, where no read finds it, and the device is not invoked (DESIGN CHOICE). -/
def writeRange (s : State) (addr : Nat) (bytes : List Byte) : Option State :=
  if addr + bytes.length ≤ 65536 then some { s with mem := s.mem.writeAll addr bytes } else none

/-- The host's `Read` and `Write` of one byte between operations (20_memory.md R71): the bus operations of R51 and R52. They
belong to no operation of the core, so they take the device's cycles alone (10_state.md R40; log entry 14). -/
def hostRead (s : State) (a : Addr) : State := s.busRead a
def hostWrite (s : State) (a : Addr) (v : Byte) : State := s.busWrite a v

/-- The cycles a `Step()` returned: `clock` after minus `clock` before (70_reset_and_hazards.md R316). -/
def cyclesSince (before after : State) : Nat := after.clock - before.clock

end State

/-! ## Session construction -/

/-- The register and flag values at construction, which the spec leaves unspecified (10_state.md R43): "a model takes them as
arguments" (92_eei_decisions.md D16). -/
structure InitialRegs where
  a : Byte
  x : Byte
  y : Byte
  sp : Byte
  pc : Addr
  p : Flags
deriving DecidableEq, Repr

/-- "the only external inputs required to start a session" (70_reset_and_hazards.md R305): the variant, the map, the initial
image as `WriteRange` calls; with the unspecified registers and the device replies to come. -/
structure SessionConfig where
  variant : Variant
  regions : List Region
  image : List (Nat × List Byte)
  regs : InitialRegs
  inputs : List DeviceReply
deriving DecidableEq, Repr

/-- Whether two windows share no address; an empty window shares none. -/
def regionsDisjoint (r q : Region) : Bool :=
  decide (r.base + r.size ≤ q.base) || decide (q.base + q.size ≤ r.base) || decide (r.size = 0) || decide (q.size = 0)

/-- A map that is not malformed: windows inside the address space, none overlapping (20_memory.md R55, R56). -/
def regionsOk : List Region → Bool
  | [] => true
  | r :: rs => decide (r.base + r.size ≤ 65536) && rs.all (regionsDisjoint r) && regionsOk rs

/-- Whether the image, or a device, provides the byte at an address. -/
def SessionConfig.provides (c : SessionConfig) (a : Addr) : Bool :=
  c.image.any (fun w => decide (w.1 ≤ a.toNat) && decide (a.toNat < w.1 + w.2.length)) ||
    (match regionAt c.regions a with | .device _ => true | .ram | .rom => false)

/-- A configuration that construction accepts: no "malformed/overlapping memory map", no "missing reset vector" (60_exceptions.md
R263; log entry 16), every image range inside the address space. -/
def SessionConfig.ok (c : SessionConfig) : Bool :=
  regionsOk c.regions && c.image.all (fun w => decide (w.1 + w.2.length ≤ 65536)) &&
    c.provides resetVector && c.provides (resetVector + 1)

/-- The core before any `Reset()` (70_reset_and_hazards.md R305). -/
def SessionConfig.initial (c : SessionConfig) : State where
  variant := c.variant
  a := c.regs.a
  x := c.regs.x
  y := c.regs.y
  sp := c.regs.sp
  pc := c.regs.pc
  p := c.regs.p
  run := .uninitialized
  nmiPending := false
  irqLine := false
  clock := 0
  err := none
  mem := c.image.foldl (fun m w => m.writeAll w.1 w.2) []
  regions := c.regions
  inputs := c.inputs
  log := []

/-- Session construction, failing fast on a configuration error (60_exceptions.md R263). -/
def SessionConfig.construct (c : SessionConfig) : Option State := if c.ok then some c.initial else none

end Sys2Proof.Machine
end

