-- ==== Sys2Proof/Safety.lean ====
section
/-!
DEFINITION. The terms claims use: the state invariant, what the host may do between steps, the states a session can reach,
and a safe run.
-/

namespace Sys2Proof

open Sys2Proof.Machine

/-- What holds between operations (10_state.md R44 (b), (c)), with the canonical form of the memory list. -/
structure Inv (s : State) : Prop where
  memory : s.mem.wf
  notResetting : s.run ≠ .resetting
  errIffHalted : s.err.isSome = true ↔ s.run = .halted

/-- One operation of the core or of the host (00_scope.md R8): a step, a reset, a latch operation, an access to
memory between steps. -/
inductive Operation : State → State → Prop where
  | step (s t : State) (h : Machine.step s = .next t) : Operation s t
  | reset (s : State) : Operation s s.doReset
  | assertNMI (s : State) : Operation s s.assertNMI
  | assertIRQ (s : State) : Operation s s.assertIRQ
  | clearIRQ (s : State) : Operation s s.clearIRQ
  | hostRead (s : State) (a : Addr) : Operation s (s.hostRead a)
  | hostWrite (s : State) (a : Addr) (v : Byte) : Operation s (s.hostWrite a v)
  | writeRange (s t : State) (addr : Nat) (bytes : List Byte) (h : s.writeRange addr bytes = some t) : Operation s t

/-- The states a session reaches from `s`. -/
inductive Reaches : State → State → Prop where
  | refl (s : State) : Reaches s s
  | tail (s t u : State) (h : Reaches s t) (o : Operation t u) : Reaches s u

/-- A run is safe for `k` steps when the core makes them all: it never halts on an illegal opcode and then steps again. -/
def SafeFor (k : Nat) (s : State) : Prop := ∃ t, Sys2Proof.core.run k s = .next t

end Sys2Proof
end

