-- ==== Sys2Proof/Certificates/Slice0/Obligations.lean ====
section
/-!
DEFINITION. The statements about the machine, for the provers. First the vocabulary: plain transcriptions from the spec, so
that a statement can be read without the model's own flag functions; the instruction rows with their operands; then the
obligations, each with the rule it follows. An instruction's statement speaks of `exec` at a state whose `PC` is already past
the instruction (`StepRunsTheDecodedInstruction`).
-/

namespace Sys2Proof.Claims

open Sys2Proof Sys2Proof.Machine

/-! ## What changes and what does not -/

/-- The registers and flags a program can reach (10_state.md R20). -/
structure Regs where
  a : Byte
  x : Byte
  y : Byte
  sp : Byte
  pc : Addr
  p : Flags
deriving DecidableEq, Repr

def regsOf (s : State) : Regs := { a := s.a, x := s.x, y := s.y, sp := s.sp, pc := s.pc, p := s.p }

/-- None of the addresses is a device's. -/
def NoDevice (s : State) (l : List Addr) : Prop := ∀ a ∈ l, PlainAt s a

/-- `t` is what an instruction makes of `s`: the registers and flags are `r`, exactly; run state, error record, variant and
map stay; and if none of the addresses `touched` is a device's, the latches and device replies stay, and every byte of memory
outside `stored` reads as before. -/
structure Effect (s t : State) (r : Regs) (stored touched : List Addr) : Prop where
  regs : regsOf t = r
  run : t.run = s.run
  err : t.err = s.err
  variant : t.variant = s.variant
  regions : t.regions = s.regions
  latches : NoDevice s touched → t.nmiPending = s.nmiPending ∧ t.irqLine = s.irqLine ∧ t.inputs = s.inputs
  memory : NoDevice s touched → ∀ n, (∀ b ∈ stored, n ≠ b.toNat) → t.mem.read n = s.mem.read n

/-- If memory was canonical (`StepKeepsTheInvariant`) and the address is RAM, the byte stored there is `v`. -/
def RamHolds (s t : State) (a : Addr) (v : Byte) : Prop :=
  s.mem.wf → regionAt s.regions a = .ram → t.mem.read a.toNat = v

/-- A pointer byte's address in page 0. -/
def zpAt (z : Byte) : Addr := BitVec.ofNat 16 z.toNat

/-- Where a mode reads its pointer (40_addressing_modes.md R111, R112, R115). -/
def pointers (m : MemMode) (s : State) : List Addr :=
  match m with
  | .indx z => [zpAt (z + s.x), zpAt (z + s.x + 1)]
  | .indy z | .izp z => [zpAt z, zpAt (z + 1)]
  | .zp _ | .zpx _ | .zpy _ | .abs _ | .absx _ | .absy _ => []

/-- The addresses an operand in memory touches: its pointer's and its own. -/
def modeTouches (m : MemMode) (s : State) : List Addr := pointers m s ++ [m.ea s]

def srcTouches (src : Src) (s : State) : List Addr :=
  match src with
  | .imm _ => []
  | .mem m => modeTouches m s

def dstTouches (d : Dst) (s : State) : List Addr :=
  match d with
  | .acc => []
  | .mem m => modeTouches m s

/-- `PC` of `t` is the word its last two accesses read, at `lo` and then at `hi`, plus `add`, after the accesses `earlier`; if
none of the addresses `touched` is a device's, the word is what memory held in `s`. -/
def PcFrom (s t : State) (lo hi : Addr) (add : Nat) (touched : List Addr) (earlier : List Access) : Prop :=
  ∃ l h : Byte, t.log = .read hi h :: .read lo l :: earlier ∧ t.pc.toNat = (l.toNat + 256 * h.toNat + add) % 65536 ∧
    (NoDevice s touched → l = s.mem.read lo.toNat ∧ h = s.mem.read hi.toNat)

/-- A read-modify-write row completes: its operand `m` becomes `value m`, the flags `flags m`, nothing else changes. -/
def Rewrites (s : State) (f : Instr × Dst) (value : Byte → Byte) (flags : Byte → Flags) : Prop :=
  let m := f.2.value s
  ∃ t, exec f.1 s = .next t ∧
    match f.2 with
    | .acc => m = s.a ∧ Effect s t { regsOf s with a := value m, p := flags m } [] []
    | .mem mode => Effect s t { regsOf s with p := flags m } [mode.ea s] (modeTouches mode s) ∧ RamHolds s t (mode.ea s) (value m)

/-! ## Transcriptions -/

/-- `SetNZ(v)` (00_scope.md R12). -/
def nz (p : Flags) (v : Byte) : Flags := { p with z := decide (v = 0), n := v.getLsbD 7 }

/-- `Compare(r, m)` (43_logic_arith.md R153). -/
def compareFlags (p : Flags) (r m : Byte) : Flags :=
  { p with c := decide (m.toNat ≤ r.toNat), z := decide (r = m), n := (BitVec.ofInt 8 ((r.toNat : Int) - m.toNat)).getLsbD 7 }

/-- `PImage(b)` (10_state.md R35), bit by bit. -/
def statusImage (p : Flags) (b : Bool) : Byte :=
  BitVec.ofBool p.n ++ BitVec.ofBool p.v ++ 1#1 ++ BitVec.ofBool b ++ BitVec.ofBool p.d ++ BitVec.ofBool p.i ++
    BitVec.ofBool p.z ++ BitVec.ofBool p.c

/-- `PLoad(v)` (10_state.md R36). -/
def flagsOfByte (v : Byte) : Flags :=
  { n := v.getLsbD 7, v := v.getLsbD 6, d := v.getLsbD 3, i := v.getLsbD 2, z := v.getLsbD 1, c := v.getLsbD 0 }

/-- The flags an exception handler or a reset program starts with: `I = 1`, and on `CMOS` `D = 0` (48_cmos_extensions.md R249). -/
def maskedFlags (s : State) : Flags :=
  match s.variant with
  | .nmos => { s.p with i := true }
  | .cmos => { s.p with i := true, d := false }

/-- `0x0100 + S` (10_state.md R24). -/
def stackSlot (sp : Byte) : Addr := BitVec.ofNat 16 (0x0100 + sp.toNat)

/-- Page 1 is RAM. -/
def StackIsRam (s : State) : Prop := ∀ sp : Byte, regionAt s.regions (stackSlot sp) = .ram

/-- The byte at an address, as a number. -/
def byteAt (s : State) (a : Nat) : Nat := (s.mem.read a).toNat

/-- `ReadWordZP(z)` (20_memory.md R53), as a number. -/
def zpWord (s : State) (z : Nat) : Nat := byteAt s z + 256 * byteAt s ((z + 1) % 256)

/-- The addresses accessed so far, newest first. -/
def addresses (s : State) : List Nat := s.log.map (·.addr.toNat)

/-- The addresses an exception entry touches: three stack slots and the vector. -/
def entryTouches (s : State) (vector : Addr) : List Addr :=
  [stackSlot s.sp, stackSlot (s.sp - 1), stackSlot (s.sp - 2), vector, vector + 1]

/-- An exception entry (60_exceptions.md R269, 47_system.md R220): three bytes pushed, the flags masked, `PC` from the vector
(the pushes lie in page 1, the vectors in page 255); nothing else changes. -/
structure EntersHandler (s t : State) (ret : Addr) (b : Bool) (vector : Addr) : Prop where
  regs : regsOf t = { regsOf s with sp := s.sp - 3, pc := t.pc, p := maskedFlags s }
  run : t.run = s.run
  err : t.err = s.err
  variant : t.variant = s.variant
  regions : t.regions = s.regions
  target : PcFrom s t vector (vector + 1) 0 (entryTouches s vector)
    (.write (stackSlot (s.sp - 2)) (statusImage s.p b) :: .write (stackSlot (s.sp - 1)) (BitVec.ofNat 8 ret.toNat) ::
      .write (stackSlot s.sp) (BitVec.ofNat 8 (ret.toNat / 256)) :: s.log)
  high : NoDevice s (entryTouches s vector) → RamHolds s t (stackSlot s.sp) (BitVec.ofNat 8 (ret.toNat / 256))
  low : NoDevice s (entryTouches s vector) → RamHolds s t (stackSlot (s.sp - 1)) (BitVec.ofNat 8 ret.toNat)
  status : NoDevice s (entryTouches s vector) → RamHolds s t (stackSlot (s.sp - 2)) (statusImage s.p b)
  memory : NoDevice s (entryTouches s vector) → ∀ n, (∀ k ∈ [0#8, 1#8, 2#8], n ≠ (stackSlot (s.sp - k)).toNat) →
    t.mem.read n = s.mem.read n

/-! ## Devices -/

/-- What the device answers next: the first of the replies to come, or the free value of log entry 6. -/
def nextReply (s : State) (id : Nat) (a : Addr) (written : Option Byte) : DeviceReply :=
  match s.inputs with
  | r :: _ => r
  | [] => Config.deviceReply id a written s.clock s.log

/-- `t` is `s` after an access that the device answers with `r` and the record shows as `x`: one cycle and the reply's cost
(70_reset_and_hazards.md R314, R315), its latch calls (60_exceptions.md R266), its stores, and nothing else. -/
def Serves (s t : State) (r : DeviceReply) (x : Access) : Prop :=
  t = { s with
    clock := s.clock + 1 + r.cost
    nmiPending := s.nmiPending || r.nmi
    irqLine := match r.irq with | none => s.irqLine | some level => level
    mem := t.mem
    inputs := s.inputs.tail
    log := x :: s.log } ∧
  (s.mem.wf → t.mem.wf ∧ ∀ n, t.mem.read n =
    match r.stores.reverse.find? (fun w => w.1.toNat == n) with | some w => w.2 | none => s.mem.read n)

/-! ## Sessions -/

/-- Whether a window holds an address. -/
def InWindow (r : Region) (n : Nat) : Prop := r.base ≤ n ∧ n < r.base + r.size

/-- "malformed/overlapping memory map" (60_exceptions.md R263): a window passes 0xFFFF, or two share an address. -/
def MapMalformed (regions : List Region) : Prop :=
  (∃ r ∈ regions, 65536 < r.base + r.size) ∨
  ∃ (i j : Nat) (r q : Region) (n : Nat), i < j ∧ regions[i]? = some r ∧ regions[j]? = some q ∧ InWindow r n ∧ InWindow q n

/-- The image or a device provides the byte at an address (log entry 16). -/
def Provided (c : SessionConfig) (a : Nat) : Prop :=
  (∃ w ∈ c.image, w.1 ≤ a ∧ a < w.1 + w.2.length) ∨ ∃ id : Nat, regionAt c.regions (BitVec.ofNat 16 a) = .device id

/-- A configuration without the errors of 60_exceptions.md R263 and 20_memory.md R54. -/
def GoodConfig (c : SessionConfig) : Prop :=
  ¬ MapMalformed c.regions ∧ (∀ w ∈ c.image, w.1 + w.2.length ≤ 65536) ∧ Provided c 0xFFFC ∧ Provided c 0xFFFD

/-- The image's byte at an address: that of the last range that holds the address. -/
def imageByte (image : List (Nat × List Byte)) (n : Nat) : Option Byte :=
  (image.reverse.find? (fun w => decide (w.1 ≤ n) && decide (n < w.1 + w.2.length))).bind (fun w => w.2[n - w.1]?)

/-! ## Decimal arithmetic -/

/-- The result of one of the four decimal functions: `(r, C', V', N', Z')`. -/
structure Decimal where
  r : Int
  c : Bool
  v : Bool
  n : Bool
  z : Bool

/-- `A <- r` and the four flags. -/
def decimalRegs (s : State) (u : Decimal) : Regs :=
  { regsOf s with a := BitVec.ofInt 8 u.r, p := { s.p with c := u.c, v := u.v, n := u.n, z := u.z } }

/-- The line of R151 and R246 for `al`. -/
def specLow (a m c : Nat) : Nat :=
  let al := (a &&& 0x0F) + (m &&& 0x0F) + c
  if al ≥ 0x0A then ((al + 0x06) &&& 0x0F) + 0x10 else al

/-- `t` of R151 and R246 before its correction. -/
def specMid (a m c : Nat) : Nat := (a &&& 0xF0) + (m &&& 0xF0) + specLow a m c

/-- `t` of R151 and R246 after it. -/
def specSum (a m c : Nat) : Nat := if specMid a m c ≥ 0xA0 then specMid a m c + 0x60 else specMid a m c

/-- `AdcDecimalNMOS` (43_logic_arith.md R151). -/
def specAdcNmos (a m c : Nat) : Decimal :=
  let t := specMid a m c
  { r := (specSum a m c % 256 : Nat), c := decide (specSum a m c ≥ 0x100),
    v := ((a ^^^ t) &&& (m ^^^ t) &&& 0x80) != 0, n := t.testBit 7, z := (a + m + c) % 256 == 0 }

/-- `AdcDecimalCMOS` (48_cmos_extensions.md R246). -/
def specAdcCmos (a m c : Nat) : Decimal :=
  let t := specMid a m c
  let r := specSum a m c % 256
  { r := (r : Nat), c := decide (specSum a m c ≥ 0x100), v := ((a ^^^ t) &&& (m ^^^ t) &&& 0x80) != 0, n := r.testBit 7,
    z := r == 0 }

/-- `rb`, `C'`, `V'` of R152 and R247: the binary subtraction `AddBinary(a, m ^ 0xFF, c)` of R150. -/
def specSubByte (a m c : Nat) : Nat := (a + (m ^^^ 0xFF) + c) % 256
def specSubCarry (a m c : Nat) : Bool := decide (a + (m ^^^ 0xFF) + c ≥ 256)
def specSubOverflow (a m c : Nat) : Bool :=
  let r := specSubByte a m c
  ((a ^^^ r) &&& ((m ^^^ 0xFF) ^^^ r) &&& 0x80) != 0

/-- `al` of R152 and R247 before its correction. -/
def specLowDiff (a m c : Nat) : Int := ((a &&& 0x0F : Nat) : Int) - (m &&& 0x0F : Nat) + c - 1

/-- `SbcDecimalNMOS` (43_logic_arith.md R152); `x & 0x0F` of a negative `x` is `x mod 16`. -/
def specSbcNmos (a m c : Nat) : Decimal :=
  let al := if specLowDiff a m c < 0 then (specLowDiff a m c - 0x06) % 16 - 0x10 else specLowDiff a m c
  let t := ((a &&& 0xF0 : Nat) : Int) - (m &&& 0xF0 : Nat) + al
  let t := if t < 0 then t - 0x60 else t
  { r := t % 256, c := specSubCarry a m c, v := specSubOverflow a m c, n := (specSubByte a m c).testBit 7,
    z := specSubByte a m c == 0 }

/-- `SbcDecimalCMOS` (48_cmos_extensions.md R247). -/
def specSbcCmos (a m c : Nat) : Decimal :=
  let t := (a : Int) - m + c - 1
  let t := if t < 0 then t - 0x60 else t
  let t := if specLowDiff a m c < 0 then t - 0x06 else t
  let r := t % 256
  { r := r, c := specSubCarry a m c, v := specSubOverflow a m c, n := decide (128 ≤ r), z := r == 0 }

/-- Packed BCD: both nibbles 0 to 9 (00_scope.md R16). -/
def isBcd (b : Byte) : Prop := b.toNat / 16 < 10 ∧ b.toNat % 16 < 10

/-- The number a packed BCD byte holds. -/
def ofBcd (b : Byte) : Nat := b.toNat / 16 * 10 + b.toNat % 16

/-! ## The record of accesses -/

/-- The value last written to an address, by a record with the newest access first. -/
def lastWrite (a : Addr) : List Access → Option Byte
  | [] => none
  | .write b v :: l => if b = a then some v else lastWrite a l
  | .read _ _ :: l => lastWrite a l

/-- RAM holds what was last written, and every recorded read of RAM returned what was last written before it (20_memory.md
R63). -/
def Coherent (s : State) : Prop :=
  (∀ a v, regionAt s.regions a = .ram → lastWrite a s.log = some v → s.mem.read a.toNat = v) ∧
  ∀ newer older a v w, s.log = newer ++ .read a v :: older → regionAt s.regions a = .ram → lastWrite a older = some w → v = w

/-! ## The instruction rows -/

/-! Read instructions: each row with its operand (41_load_store_transfer.md, 43_logic_arith.md). -/

/-- The rows of `LDA` (R121). -/
def ldaForms (v : Byte) (z : Byte) (a : Addr) : List (Instr × Src) :=
  [(.ldaImm v, .imm v), (.ldaZp z, .mem (.zp z)), (.ldaZpx z, .mem (.zpx z)), (.ldaAbs a, .mem (.abs a)),
   (.ldaAbsx a, .mem (.absx a)), (.ldaAbsy a, .mem (.absy a)), (.ldaIndx z, .mem (.indx z)),
   (.ldaIndy z, .mem (.indy z)), (.ldaIzp z, .mem (.izp z))]

/-- The rows of `LDX` (R122). -/
def ldxForms (v : Byte) (z : Byte) (a : Addr) : List (Instr × Src) :=
  [(.ldxImm v, .imm v), (.ldxZp z, .mem (.zp z)), (.ldxZpy z, .mem (.zpy z)), (.ldxAbs a, .mem (.abs a)),
   (.ldxAbsy a, .mem (.absy a))]

/-- The rows of `LDY` (R123). -/
def ldyForms (v : Byte) (z : Byte) (a : Addr) : List (Instr × Src) :=
  [(.ldyImm v, .imm v), (.ldyZp z, .mem (.zp z)), (.ldyZpx z, .mem (.zpx z)), (.ldyAbs a, .mem (.abs a)),
   (.ldyAbsx a, .mem (.absx a))]

/-- The rows of `AND` (R154). -/
def andForms (v : Byte) (z : Byte) (a : Addr) : List (Instr × Src) :=
  [(.andImm v, .imm v), (.andZp z, .mem (.zp z)), (.andZpx z, .mem (.zpx z)), (.andAbs a, .mem (.abs a)),
   (.andAbsx a, .mem (.absx a)), (.andAbsy a, .mem (.absy a)), (.andIndx z, .mem (.indx z)),
   (.andIndy z, .mem (.indy z)), (.andIzp z, .mem (.izp z))]

/-- The rows of `ORA` (R155). -/
def oraForms (v : Byte) (z : Byte) (a : Addr) : List (Instr × Src) :=
  [(.oraImm v, .imm v), (.oraZp z, .mem (.zp z)), (.oraZpx z, .mem (.zpx z)), (.oraAbs a, .mem (.abs a)),
   (.oraAbsx a, .mem (.absx a)), (.oraAbsy a, .mem (.absy a)), (.oraIndx z, .mem (.indx z)),
   (.oraIndy z, .mem (.indy z)), (.oraIzp z, .mem (.izp z))]

/-- The rows of `EOR` (R156). -/
def eorForms (v : Byte) (z : Byte) (a : Addr) : List (Instr × Src) :=
  [(.eorImm v, .imm v), (.eorZp z, .mem (.zp z)), (.eorZpx z, .mem (.zpx z)), (.eorAbs a, .mem (.abs a)),
   (.eorAbsx a, .mem (.absx a)), (.eorAbsy a, .mem (.absy a)), (.eorIndx z, .mem (.indx z)),
   (.eorIndy z, .mem (.indy z)), (.eorIzp z, .mem (.izp z))]

/-- The rows of `BIT` with a memory operand (R243). -/
def bitForms (z : Byte) (a : Addr) : List (Instr × Src) :=
  [(.bitZp z, .mem (.zp z)), (.bitZpx z, .mem (.zpx z)), (.bitAbs a, .mem (.abs a)), (.bitAbsx a, .mem (.absx a))]

/-- The rows of `ADC` (R158). -/
def adcForms (v : Byte) (z : Byte) (a : Addr) : List (Instr × Src) :=
  [(.adcImm v, .imm v), (.adcZp z, .mem (.zp z)), (.adcZpx z, .mem (.zpx z)), (.adcAbs a, .mem (.abs a)),
   (.adcAbsx a, .mem (.absx a)), (.adcAbsy a, .mem (.absy a)), (.adcIndx z, .mem (.indx z)),
   (.adcIndy z, .mem (.indy z)), (.adcIzp z, .mem (.izp z))]

/-- The rows of `SBC` (R159). -/
def sbcForms (v : Byte) (z : Byte) (a : Addr) : List (Instr × Src) :=
  [(.sbcImm v, .imm v), (.sbcZp z, .mem (.zp z)), (.sbcZpx z, .mem (.zpx z)), (.sbcAbs a, .mem (.abs a)),
   (.sbcAbsx a, .mem (.absx a)), (.sbcAbsy a, .mem (.absy a)), (.sbcIndx z, .mem (.indx z)),
   (.sbcIndy z, .mem (.indy z)), (.sbcIzp z, .mem (.izp z))]

/-- The rows of `CMP` (R160). -/
def cmpForms (v : Byte) (z : Byte) (a : Addr) : List (Instr × Src) :=
  [(.cmpImm v, .imm v), (.cmpZp z, .mem (.zp z)), (.cmpZpx z, .mem (.zpx z)), (.cmpAbs a, .mem (.abs a)),
   (.cmpAbsx a, .mem (.absx a)), (.cmpAbsy a, .mem (.absy a)), (.cmpIndx z, .mem (.indx z)),
   (.cmpIndy z, .mem (.indy z)), (.cmpIzp z, .mem (.izp z))]

/-- The rows of `CPX` (R161). -/
def cpxForms (v : Byte) (z : Byte) (a : Addr) : List (Instr × Src) :=
  [(.cpxImm v, .imm v), (.cpxZp z, .mem (.zp z)), (.cpxAbs a, .mem (.abs a))]

/-- The rows of `CPY` (R162). -/
def cpyForms (v : Byte) (z : Byte) (a : Addr) : List (Instr × Src) :=
  [(.cpyImm v, .imm v), (.cpyZp z, .mem (.zp z)), (.cpyAbs a, .mem (.abs a))]

/-! Write instructions: each row with its mode (R124 to R126, R237). -/

/-- The rows of `STA` (R124). -/
def staForms (z : Byte) (a : Addr) : List (Instr × MemMode) :=
  [(.staZp z, .zp z), (.staZpx z, .zpx z), (.staAbs a, .abs a), (.staAbsx a, .absx a), (.staAbsy a, .absy a),
   (.staIndx z, .indx z), (.staIndy z, .indy z), (.staIzp z, .izp z)]

/-- The rows of `STX` (R125). -/
def stxForms (z : Byte) (a : Addr) : List (Instr × MemMode) :=
  [(.stxZp z, .zp z), (.stxZpy z, .zpy z), (.stxAbs a, .abs a)]

/-- The rows of `STY` (R126). -/
def styForms (z : Byte) (a : Addr) : List (Instr × MemMode) :=
  [(.styZp z, .zp z), (.styZpx z, .zpx z), (.styAbs a, .abs a)]

/-- The rows of `STZ` (R237). -/
def stzForms (z : Byte) (a : Addr) : List (Instr × MemMode) :=
  [(.stzZp z, .zp z), (.stzZpx z, .zpx z), (.stzAbs a, .abs a), (.stzAbsx a, .absx a)]

/-! Read-modify-write instructions: each row with its operand (R170 to R180, R238, R239, R241, R242). -/

/-- The rows of `INC` (R241). -/
def incForms (z : Byte) (a : Addr) : List (Instr × Dst) :=
  [(.incAcc, .acc), (.incZp z, .mem (.zp z)), (.incZpx z, .mem (.zpx z)), (.incAbs a, .mem (.abs a)),
   (.incAbsx a, .mem (.absx a))]

/-- The rows of `DEC` (R242). -/
def decForms (z : Byte) (a : Addr) : List (Instr × Dst) :=
  [(.decAcc, .acc), (.decZp z, .mem (.zp z)), (.decZpx z, .mem (.zpx z)), (.decAbs a, .mem (.abs a)),
   (.decAbsx a, .mem (.absx a))]

/-- The rows of `ASL` (R177). -/
def aslForms (z : Byte) (a : Addr) : List (Instr × Dst) :=
  [(.aslAcc, .acc), (.aslZp z, .mem (.zp z)), (.aslZpx z, .mem (.zpx z)), (.aslAbs a, .mem (.abs a)),
   (.aslAbsx a, .mem (.absx a))]

/-- The rows of `LSR` (R178). -/
def lsrForms (z : Byte) (a : Addr) : List (Instr × Dst) :=
  [(.lsrAcc, .acc), (.lsrZp z, .mem (.zp z)), (.lsrZpx z, .mem (.zpx z)), (.lsrAbs a, .mem (.abs a)),
   (.lsrAbsx a, .mem (.absx a))]

/-- The rows of `ROL` (R179). -/
def rolForms (z : Byte) (a : Addr) : List (Instr × Dst) :=
  [(.rolAcc, .acc), (.rolZp z, .mem (.zp z)), (.rolZpx z, .mem (.zpx z)), (.rolAbs a, .mem (.abs a)),
   (.rolAbsx a, .mem (.absx a))]

/-- The rows of `ROR` (R180). -/
def rorForms (z : Byte) (a : Addr) : List (Instr × Dst) :=
  [(.rorAcc, .acc), (.rorZp z, .mem (.zp z)), (.rorZpx z, .mem (.zpx z)), (.rorAbs a, .mem (.abs a)),
   (.rorAbsx a, .mem (.absx a))]

/-- The rows of `TRB` (R238). -/
def trbForms (z : Byte) (a : Addr) : List (Instr × Dst) :=
  [(.trbZp z, .mem (.zp z)), (.trbAbs a, .mem (.abs a))]

/-- The rows of `TSB` (R239). -/
def tsbForms (z : Byte) (a : Addr) : List (Instr × Dst) :=
  [(.tsbZp z, .mem (.zp z)), (.tsbAbs a, .mem (.abs a))]

/-- All rows of the read instructions but `ADC` and `SBC`. -/
def readForms (v z : Byte) (a : Addr) : List (Instr × Src) :=
  (.bitImm v, .imm v) :: (ldaForms v z a ++ ldxForms v z a ++ ldyForms v z a ++ andForms v z a ++ oraForms v z a ++ eorForms v z a ++
    bitForms z a ++ cmpForms v z a ++ cpxForms v z a ++ cpyForms v z a)

/-- All rows of the write instructions. -/
def writeForms (z : Byte) (a : Addr) : List (Instr × MemMode) := staForms z a ++ stxForms z a ++ styForms z a ++ stzForms z a

/-- All rows of the read-modify-write instructions. -/
def rmwForms (z : Byte) (a : Addr) : List (Instr × Dst) :=
  incForms z a ++ decForms z a ++ aslForms z a ++ lsrForms z a ++
    rolForms z a ++ rorForms z a ++ trbForms z a ++ tsbForms z a

/-- The write rows with the byte each writes. -/
def storeRows (z : Byte) (a : Addr) (s : State) : List ((Instr × MemMode) × Byte) :=
  (staForms z a).map (·, s.a) ++ (stxForms z a).map (·, s.x) ++ (styForms z a).map (·, s.y) ++ (stzForms z a).map (·, 0)

/-- The read-modify-write rows with what each makes of its operand. -/
def rmwRows (z : Byte) (a : Addr) (s : State) : List ((Instr × Dst) × (Byte → Byte)) :=
  (incForms z a).map (·, fun m => m + 1) ++ (decForms z a).map (·, fun m => m - 1) ++
    (aslForms z a).map (·, fun m => BitVec.ofNat 8 (2 * m.toNat)) ++
    (lsrForms z a).map (·, fun m => BitVec.ofNat 8 (m.toNat / 2)) ++
    (rolForms z a).map (·, fun m => BitVec.ofNat 8 (2 * m.toNat + s.p.c.toNat)) ++
    (rorForms z a).map (·, fun m => BitVec.ofNat 8 (m.toNat / 2 + 128 * s.p.c.toNat)) ++
    (trbForms z a).map (·, fun m => m &&& ~~~s.a) ++ (tsbForms z a).map (·, fun m => m ||| s.a)

/-- The nine branches, each with its opcode and the condition its rule gives (R194 to R201, 48_cmos_extensions.md R232). -/
def branchForms (off : Byte) (p : Flags) : List (Instr × Byte × Bool) :=
  [(.bcc off, 0x90, !p.c), (.bcs off, 0xB0, p.c), (.beq off, 0xF0, p.z), (.bmi off, 0x30, p.n),
   (.bne off, 0xD0, !p.z), (.bpl off, 0x10, !p.n), (.bvc off, 0x50, !p.v), (.bvs off, 0x70, p.v), (.bra off, 0x80, true)]

/-- The seven flag instructions and `NOP`, each with its opcode and the flags after it (46_flags_nop.md R210 to R217). -/
def flagForms (p : Flags) : List (Instr × Byte × Flags) :=
  [(.clc, 0x18, { p with c := false }), (.sec, 0x38, { p with c := true }), (.cli, 0x58, { p with i := false }),
   (.sei, 0x78, { p with i := true }), (.cld, 0xD8, { p with d := false }), (.sed, 0xF8, { p with d := true }),
   (.clv, 0xB8, { p with v := false }), (.nop, 0xEA, p)]

/-- The transfers, each with its opcode and the registers and flags after it (41_load_store_transfer.md R127 to R132). -/
def transferForms (s : State) : List (Instr × Byte × Regs) :=
  [(.tax, 0xAA, { regsOf s with x := s.a, p := nz s.p s.a }), (.tay, 0xA8, { regsOf s with y := s.a, p := nz s.p s.a }),
   (.txa, 0x8A, { regsOf s with a := s.x, p := nz s.p s.x }), (.tya, 0x98, { regsOf s with a := s.y, p := nz s.p s.y }),
   (.tsx, 0xBA, { regsOf s with x := s.sp, p := nz s.p s.sp }), (.txs, 0x9A, { regsOf s with sp := s.x })]

/-- The index increments and decrements, likewise (44_incdec_shift.md R173 to R176). -/
def indexForms (s : State) : List (Instr × Byte × Regs) :=
  [(.inx, 0xE8, { regsOf s with x := s.x + 1, p := nz s.p (s.x + 1) }),
   (.iny, 0xC8, { regsOf s with y := s.y + 1, p := nz s.p (s.y + 1) }),
   (.dex, 0xCA, { regsOf s with x := s.x - 1, p := nz s.p (s.x - 1) }),
   (.dey, 0x88, { regsOf s with y := s.y - 1, p := nz s.p (s.y - 1) })]

/-- The pulls, likewise, for the byte `b` on the stack (42_stack.md R142, R143, 48_cmos_extensions.md R235, R236). -/
def pullForms (s : State) (b : Byte) : List (Instr × Byte × Regs) :=
  [(.pla, 0x68, { regsOf s with sp := s.sp + 1, a := b, p := nz s.p b }),
   (.plx, 0xFA, { regsOf s with sp := s.sp + 1, x := b, p := nz s.p b }),
   (.ply, 0x7A, { regsOf s with sp := s.sp + 1, y := b, p := nz s.p b }),
   (.plp, 0x28, { regsOf s with sp := s.sp + 1, p := flagsOfByte b })]

/-- 70_reset_and_hazards.md R309, class read. -/
def readBase : Src → Option Nat
  | .imm _ => some 2
  | .mem (.zp _) => some 3
  | .mem (.zpx _) | .mem (.zpy _) | .mem (.abs _) | .mem (.absx _) | .mem (.absy _) => some 4
  | .mem (.indx _) => some 6
  | .mem (.indy _) | .mem (.izp _) => some 5

/-- R309, class write. -/
def writeBase : MemMode → Option Nat
  | .zp _ => some 3
  | .zpx _ | .zpy _ | .abs _ => some 4
  | .absx _ | .absy _ | .izp _ => some 5
  | .indx _ | .indy _ => some 6

/-- R309, class RMW, with the CMOS shifts and rotates in `absx` of 48_cmos_extensions.md R250; the table has no entry for the
modes these instructions lack. -/
def rmwBase (f : Instr × Dst) (s : State) : Option Nat :=
  match f.2 with
  | .acc => some 2
  | .mem (.zp _) => some 5
  | .mem (.zpx _) | .mem (.abs _) => some 6
  | .mem (.absx a) =>
    match f.1, s.variant with
    | .aslAbsx _, .cmos | .lsrAbsx _, .cmos | .rolAbsx _, .cmos | .rorAbsx _, .cmos =>
      some (6 + ((MemMode.absx a).crossed s).toNat)
    | _, _ => some 7
  | .mem _ => none

/-- `crossed` of a read operand; an immediate never crosses. -/
def crosses (src : Src) (s : State) : Bool :=
  match src with
  | .imm _ => false
  | .mem m => m.crossed s

/-- R309, "Other opcodes". -/
def otherCycles (a : Addr) (variant : Variant) : List (Instr × Nat) :=
  [(.tax, 2), (.tay, 2), (.txa, 2), (.tya, 2), (.tsx, 2), (.txs, 2), (.inx, 2), (.iny, 2), (.dex, 2), (.dey, 2),
   (.clc, 2), (.sec, 2), (.cli, 2), (.sei, 2), (.cld, 2), (.sed, 2), (.clv, 2), (.nop, 2), (.pha, 3), (.php, 3),
   (.phx, 3), (.phy, 3), (.jmpAbs a, 3), (.pla, 4), (.plp, 4), (.plx, 4), (.ply, 4), (.jmpIax a, 6), (.jsr a, 6),
   (.rts, 6), (.rti, 6), (.brk, 7),
   (.jmpInd a, match variant with | .nmos => 5 | .cmos => 6)]

/-- The mnemonic of an instruction, as spec/opcode_table.json spells it. -/
def mnemonic : Instr → String
  | .ldaImm _ | .ldaZp _ | .ldaZpx _ | .ldaAbs _ | .ldaAbsx _ | .ldaAbsy _ | .ldaIndx _ | .ldaIndy _ | .ldaIzp _ => "LDA"
  | .ldxImm _ | .ldxZp _ | .ldxZpy _ | .ldxAbs _ | .ldxAbsy _ => "LDX"
  | .ldyImm _ | .ldyZp _ | .ldyZpx _ | .ldyAbs _ | .ldyAbsx _ => "LDY"
  | .staZp _ | .staZpx _ | .staAbs _ | .staAbsx _ | .staAbsy _ | .staIndx _ | .staIndy _ | .staIzp _ => "STA"
  | .stxZp _ | .stxZpy _ | .stxAbs _ => "STX"
  | .styZp _ | .styZpx _ | .styAbs _ => "STY"
  | .tax => "TAX"
  | .tay => "TAY"
  | .txa => "TXA"
  | .tya => "TYA"
  | .tsx => "TSX"
  | .txs => "TXS"
  | .pha => "PHA"
  | .php => "PHP"
  | .pla => "PLA"
  | .plp => "PLP"
  | .andImm _ | .andZp _ | .andZpx _ | .andAbs _ | .andAbsx _ | .andAbsy _ | .andIndx _ | .andIndy _ | .andIzp _ => "AND"
  | .oraImm _ | .oraZp _ | .oraZpx _ | .oraAbs _ | .oraAbsx _ | .oraAbsy _ | .oraIndx _ | .oraIndy _ | .oraIzp _ => "ORA"
  | .eorImm _ | .eorZp _ | .eorZpx _ | .eorAbs _ | .eorAbsx _ | .eorAbsy _ | .eorIndx _ | .eorIndy _ | .eorIzp _ => "EOR"
  | .bitImm _ | .bitZp _ | .bitZpx _ | .bitAbs _ | .bitAbsx _ => "BIT"
  | .adcImm _ | .adcZp _ | .adcZpx _ | .adcAbs _ | .adcAbsx _ | .adcAbsy _ | .adcIndx _ | .adcIndy _ | .adcIzp _ => "ADC"
  | .sbcImm _ | .sbcZp _ | .sbcZpx _ | .sbcAbs _ | .sbcAbsx _ | .sbcAbsy _ | .sbcIndx _ | .sbcIndy _ | .sbcIzp _ => "SBC"
  | .cmpImm _ | .cmpZp _ | .cmpZpx _ | .cmpAbs _ | .cmpAbsx _ | .cmpAbsy _ | .cmpIndx _ | .cmpIndy _ | .cmpIzp _ => "CMP"
  | .cpxImm _ | .cpxZp _ | .cpxAbs _ => "CPX"
  | .cpyImm _ | .cpyZp _ | .cpyAbs _ => "CPY"
  | .incAcc | .incZp _ | .incZpx _ | .incAbs _ | .incAbsx _ => "INC"
  | .decAcc | .decZp _ | .decZpx _ | .decAbs _ | .decAbsx _ => "DEC"
  | .inx => "INX"
  | .iny => "INY"
  | .dex => "DEX"
  | .dey => "DEY"
  | .aslAcc | .aslZp _ | .aslZpx _ | .aslAbs _ | .aslAbsx _ => "ASL"
  | .lsrAcc | .lsrZp _ | .lsrZpx _ | .lsrAbs _ | .lsrAbsx _ => "LSR"
  | .rolAcc | .rolZp _ | .rolZpx _ | .rolAbs _ | .rolAbsx _ => "ROL"
  | .rorAcc | .rorZp _ | .rorZpx _ | .rorAbs _ | .rorAbsx _ => "ROR"
  | .jmpAbs _ | .jmpInd _ | .jmpIax _ => "JMP"
  | .jsr _ => "JSR"
  | .rts => "RTS"
  | .bcc _ => "BCC"
  | .bcs _ => "BCS"
  | .beq _ => "BEQ"
  | .bmi _ => "BMI"
  | .bne _ => "BNE"
  | .bpl _ => "BPL"
  | .bvc _ => "BVC"
  | .bvs _ => "BVS"
  | .clc => "CLC"
  | .sec => "SEC"
  | .cli => "CLI"
  | .sei => "SEI"
  | .cld => "CLD"
  | .sed => "SED"
  | .clv => "CLV"
  | .nop => "NOP"
  | .brk => "BRK"
  | .rti => "RTI"
  | .bra _ => "BRA"
  | .phx => "PHX"
  | .phy => "PHY"
  | .plx => "PLX"
  | .ply => "PLY"
  | .stzZp _ | .stzZpx _ | .stzAbs _ | .stzAbsx _ => "STZ"
  | .trbZp _ | .trbAbs _ => "TRB"
  | .tsbZp _ | .tsbAbs _ => "TSB"

/-! ## Illegal opcodes -/

/-- The list of 30_encoding.md R89, copied. -/
def illegalNmos : List Byte :=
  [0x02, 0x03, 0x04, 0x07, 0x0B, 0x0C, 0x0F, 0x12, 0x13, 0x14, 0x17, 0x1A, 0x1B, 0x1C, 0x1F, 0x22, 0x23, 0x27, 0x2B,
   0x2F, 0x32, 0x33, 0x34, 0x37, 0x3A, 0x3B, 0x3C, 0x3F, 0x42, 0x43, 0x44, 0x47, 0x4B, 0x4F, 0x52, 0x53, 0x54, 0x57,
   0x5A, 0x5B, 0x5C, 0x5F, 0x62, 0x63, 0x64, 0x67, 0x6B, 0x6F, 0x72, 0x73, 0x74, 0x77, 0x7A, 0x7B, 0x7C, 0x7F, 0x80,
   0x82, 0x83, 0x87, 0x89, 0x8B, 0x8F, 0x92, 0x93, 0x97, 0x9B, 0x9C, 0x9E, 0x9F, 0xA3, 0xA7, 0xAB, 0xAF, 0xB2, 0xB3,
   0xB7, 0xBB, 0xBF, 0xC2, 0xC3, 0xC7, 0xCB, 0xCF, 0xD2, 0xD3, 0xD4, 0xD7, 0xDA, 0xDB, 0xDC, 0xDF, 0xE2, 0xE3, 0xE7,
   0xEB, 0xEF, 0xF2, 0xF3, 0xF4, 0xF7, 0xFA, 0xFB, 0xFC, 0xFF]

/-- The list of 30_encoding.md R90, copied. -/
def illegalCmos : List Byte :=
  [0x02, 0x03, 0x07, 0x0B, 0x0F, 0x13, 0x17, 0x1B, 0x1F, 0x22, 0x23, 0x27, 0x2B, 0x2F, 0x33, 0x37, 0x3B, 0x3F, 0x42,
   0x43, 0x44, 0x47, 0x4B, 0x4F, 0x53, 0x54, 0x57, 0x5B, 0x5C, 0x5F, 0x62, 0x63, 0x67, 0x6B, 0x6F, 0x73, 0x77, 0x7B,
   0x7F, 0x82, 0x83, 0x87, 0x8B, 0x8F, 0x93, 0x97, 0x9B, 0x9F, 0xA3, 0xA7, 0xAB, 0xAF, 0xB3, 0xB7, 0xBB, 0xBF, 0xC2,
   0xC3, 0xC7, 0xCB, 0xCF, 0xD3, 0xD4, 0xD7, 0xDB, 0xDC, 0xDF, 0xE2, 0xE3, 0xE7, 0xEB, 0xEF, 0xF3, 0xF4, 0xF7, 0xFB,
   0xFC, 0xFF]

end Sys2Proof.Claims

open Sys2Proof Sys2Proof.Machine Sys2Proof.Claims

/-- For every variant, every instruction the variant has, with every operand, and any bytes after it: decoding the
instruction's bytes followed by those answers the instruction and those bytes. Rests in part on what the spec marks as its
own knowledge or decision (log entry 17). Derived: 30_encoding.md sections 1 and 2, R83, R87, log entry 17. -/
def Obligations.DecodeOfEncodeIsTheInstruction : Prop :=
  ∀ (variant : Variant) (i : Instr) (rest : List Byte), i.wellFormed variant = true →
    decode variant (encode i ++ rest) = .ok (i, rest)

/-- When a list of bytes decodes to an instruction, the list is the encoding of that instruction followed by the rest, and
the variant has the instruction; so each byte sequence has one meaning. Derived: 30_encoding.md section 2, R86, R87. -/
def Obligations.DecodedBytesAreTheEncoding : Prop :=
  ∀ (variant : Variant) (bytes rest : List Byte) (i : Instr), decode variant bytes = .ok (i, rest) →
    bytes = encode i ++ rest ∧ i.wellFormed variant = true

/-- For every opcode byte and any operand bytes after it: on NMOS decoding rejects it as an illegal opcode exactly when it
is one of the 105 listed values, on CMOS exactly when it is one of the 78. Rests in part on what the spec marks as its own
knowledge or decision (log entry 17). Derived: 30_encoding.md section 3, R89, R90, log entry 17. -/
def Obligations.IllegalOpcodesAreTheListedOnes : Prop :=
  ∀ (op b c : Byte) (rest : List Byte),
    (decode .nmos (op :: b :: c :: rest) = .error (.illegalOpcode op) ↔ op ∈ illegalNmos) ∧
    (decode .cmos (op :: b :: c :: rest) = .error (.illegalOpcode op) ↔ op ∈ illegalCmos) ∧
    illegalNmos.length = 105 ∧ illegalCmos.length = 78

/-- One word of each family, written from its rule's encoding table, decodes to the instruction it stands for; 04 is TSB
on CMOS and illegal on NMOS. Rests in part on what the spec marks as its own knowledge or decision (log entry 17).
Derived: encoding tables of R121, R140, R158, R177, R191, R199, R210, R220, R239, log entry 17. -/
def Obligations.SampleWordsDecode : Prop :=
  decode .nmos [0xBD, 0x34, 0x12] = .ok (.ldaAbsx 0x1234, []) ∧
  decode .nmos [0x48] = .ok (.pha, []) ∧
  decode .nmos [0x71, 0x30, 0xEA] = .ok (.adcIndy 0x30, [0xEA]) ∧
  decode .nmos [0x0A] = .ok (.aslAcc, []) ∧
  decode .nmos [0x20, 0x00, 0x07] = .ok (.jsr 0x0700, []) ∧
  decode .nmos [0x10, 0x80] = .ok (.bpl 0x80, []) ∧
  decode .nmos [0x18] = .ok (.clc, []) ∧
  decode .nmos [0x00] = .ok (.brk, []) ∧
  decode .cmos [0x04, 0x10] = .ok (.tsbZp 0x10, []) ∧
  decode .nmos [0x04, 0x10] = .error (.illegalOpcode 0x04)

/-- Over a canonical memory: after a write of v to a RAM address, a read of it returns v; a read of RAM or ROM returns the
stored byte and changes nothing but the clock, by one, and the record of accesses; a write to RAM changes nothing but
those and memory; after a write every other address reads as before, if neither address is a device's. Derived: R60, R68,
R315, 20_memory.md section 6. -/
def Obligations.RamHoldsWhatWasWritten : Prop :=
  ∀ (s : State) (a : Addr) (v : Byte), s.mem.wf →
    (regionAt s.regions a = .ram → (s.writeByte a v).readByte a = v ∧
      s.writeByte a v = { s with clock := s.clock + 1, mem := (s.writeByte a v).mem, log := .write a v :: s.log }) ∧
    (regionAt s.regions a = .ram ∨ regionAt s.regions a = .rom → s.readByte a = s.mem.read a.toNat ∧
      s.afterRead a = { s with clock := s.clock + 1, log := .read a (s.mem.read a.toNat) :: s.log }) ∧
    (∀ b, b ≠ a → NoDevice s [a, b] → (s.writeByte a v).readByte b = s.readByte b)

/-- A read of a device window returns the byte of the next reply (the first of inputs, or the free value where there is
none, log entry 6); a read or a write takes one cycle and the reply's cost, performs its latch calls, stores its bytes
over a canonical memory, the last of an address last, and changes nothing else but the replies and the record (log entry
7). A write to ROM changes nothing but the clock, by one, and the record (log entry 5). What the log entries name is the
model's choice. Derived: R7, R60, R63, R69, R70, R266, R314, R315, 93_implementation_defined.md U6, log entry 5, log entry
6, log entry 7. -/
def Obligations.DeviceAccessesReachNoRegister : Prop :=
  ∀ (s : State) (a : Addr) (v : Byte),
    (∀ id : Nat, regionAt s.regions a = .device id →
      s.readByte a = (nextReply s id a none).value ∧
      Serves s (s.afterRead a) (nextReply s id a none) (.read a (nextReply s id a none).value) ∧
      Serves s (s.writeByte a v) (nextReply s id a (some v)) (.write a v)) ∧
    (regionAt s.regions a = .rom → s.writeByte a v = { s with clock := s.clock + 1, log := .write a v :: s.log })

/-- zp gives 0x00:z; zpx and zpy add the index modulo 256 inside page 0; abs gives the operand word; absx and absy add the
index modulo 65536. Rests in part on what the spec marks as its own knowledge or decision (log entry 17). Derived: R104,
R105, R106, R107, R108, R109, log entry 17. -/
def Obligations.EffectiveAddresses : Prop :=
  ∀ (s : State) (z : Byte) (a : Addr),
    ((MemMode.zp z).ea s).toNat = z.toNat ∧ (MemMode.zp z).crossed s = false ∧
    ((MemMode.zpx z).ea s).toNat = (z.toNat + s.x.toNat) % 256 ∧ (MemMode.zpx z).crossed s = false ∧
    ((MemMode.zpy z).ea s).toNat = (z.toNat + s.y.toNat) % 256 ∧ (MemMode.zpy z).crossed s = false ∧
    (MemMode.abs a).ea s = a ∧ (MemMode.abs a).crossed s = false ∧
    ((MemMode.absx a).ea s).toNat = (a.toNat + s.x.toNat) % 65536 ∧
    ((MemMode.absx a).crossed s = true ↔ ((MemMode.absx a).ea s).toNat / 256 ≠ a.toNat / 256) ∧
    ((MemMode.absy a).ea s).toNat = (a.toNat + s.y.toNat) % 65536 ∧
    ((MemMode.absy a).crossed s = true ↔ ((MemMode.absy a).ea s).toNat / 256 ≠ a.toNat / 256) ∧
    ∀ m ∈ [MemMode.zp z, .zpx z, .zpy z, .abs a, .absx a, .absy a], m.after s = s

/-- indx takes the pointer at (z + X) mod 256, indy and izp at z; exactly the two pointer bytes are read, both in page 0,
the second address wrapping; where neither is a device's the effective address is the word there, low byte first, to which
indy adds Y modulo 65536 and says whether that left the page. Rests in part on what the spec marks as its own knowledge or
decision (log entry 17). Derived: R53, R111, R112, R115, log entry 17. -/
def Obligations.PointerModesReadZeroPage : Prop :=
  ∀ (s : State) (z : Byte),
    addresses ((MemMode.indx z).after s) = [(z.toNat + s.x.toNat + 1) % 256, (z.toNat + s.x.toNat) % 256] ++ addresses s ∧
    (∀ m ∈ [MemMode.indy z, .izp z], addresses (m.after s) = [(z.toNat + 1) % 256, z.toNat] ++ addresses s) ∧
    (MemMode.indx z).crossed s = false ∧ (MemMode.izp z).crossed s = false ∧
    (NoDevice s (pointers (.indx z) s) → ((MemMode.indx z).ea s).toNat = zpWord s ((z.toNat + s.x.toNat) % 256)) ∧
    (NoDevice s (pointers (.izp z) s) → ((MemMode.izp z).ea s).toNat = zpWord s z.toNat ∧
      ((MemMode.indy z).ea s).toNat = (zpWord s z.toNat + s.y.toNat) % 65536 ∧
      ((MemMode.indy z).crossed s = true ↔ ((MemMode.indy z).ea s).toNat / 256 ≠ zpWord s z.toNat / 256))

/-- An immediate operand is the byte itself and makes no access; a memory operand is what one read of the effective
address returns after the pointer reads, the byte of memory there where no address of the operand is a device's. Derived:
R103, R118. -/
def Obligations.OperandsAreLoadedFromMemory : Prop :=
  ∀ (s : State) (v : Byte) (m : MemMode),
    (Src.imm v).value s = v ∧ (Src.imm v).after s = s ∧
    ((Src.mem m).after s).log = .read (m.ea s) ((Src.mem m).value s) :: (m.after s).log ∧
    (NoDevice s (modeTouches m s) →
      (Src.mem m).value s = s.mem.read (m.ea s).toNat ∧ (Dst.mem m).value s = s.mem.read (m.ea s).toNat)

/-- Every row of LDA, LDX, LDY completes in every state: the register holds the operand, Z says whether it is 0, N is its
bit 7; no other register or flag, not PC, and no byte of memory changes. What is said of the latches, the device replies,
unchanged memory and cycles holds where no address touched is a device's. Derived: R118, R121, R122, R123. -/
def Obligations.LoadsWriteRegisterAndNZ : Prop :=
  ∀ (v z : Byte) (a : Addr) (s : State),
    (∀ f ∈ ldaForms v z a, ∃ t, exec f.1 s = .next t ∧
      Effect s t { regsOf s with a := f.2.value s, p := nz s.p (f.2.value s) } [] (srcTouches f.2 s)) ∧
    (∀ f ∈ ldxForms v z a, ∃ t, exec f.1 s = .next t ∧
      Effect s t { regsOf s with x := f.2.value s, p := nz s.p (f.2.value s) } [] (srcTouches f.2 s)) ∧
    (∀ f ∈ ldyForms v z a, ∃ t, exec f.1 s = .next t ∧
      Effect s t { regsOf s with y := f.2.value s, p := nz s.p (f.2.value s) } [] (srcTouches f.2 s))

/-- Every row of STA, STX, STY, STZ completes in every state: the byte at the effective address, if it is RAM, holds the
register (0 for STZ); every other byte reads as before; no register and no flag changes. What is said of the latches, the
device replies, unchanged memory and cycles holds where no address touched is a device's. Derived: R118, R124, R125, R126,
R237. -/
def Obligations.StoresWriteTheOperandAlone : Prop :=
  ∀ (z : Byte) (a : Addr) (s : State),
    (∀ f ∈ staForms z a, ∃ t, exec f.1 s = .next t ∧ Effect s t (regsOf s) [f.2.ea s] (modeTouches f.2 s) ∧
      RamHolds s t (f.2.ea s) s.a) ∧
    (∀ f ∈ stxForms z a, ∃ t, exec f.1 s = .next t ∧ Effect s t (regsOf s) [f.2.ea s] (modeTouches f.2 s) ∧
      RamHolds s t (f.2.ea s) s.x) ∧
    (∀ f ∈ styForms z a, ∃ t, exec f.1 s = .next t ∧ Effect s t (regsOf s) [f.2.ea s] (modeTouches f.2 s) ∧
      RamHolds s t (f.2.ea s) s.y) ∧
    (∀ f ∈ stzForms z a, ∃ t, exec f.1 s = .next t ∧ Effect s t (regsOf s) [f.2.ea s] (modeTouches f.2 s) ∧
      RamHolds s t (f.2.ea s) 0)

/-- Each transfer, of one byte and two cycles, completes in every state: the destination holds the source, Z and N are
those of the byte, except that TXS leaves every flag (which the spec marks as its own decision D10, log entry 17); nothing
else changes and nothing is accessed. Cycles count the fetches, which exec follows. Stated: R127, R128, R129, R130, R131.
-/
def Obligations.TransfersCopyARegister : Prop :=
  ∀ s : State, ∀ f ∈ transferForms s, encode f.1 = [f.2.1] ∧ ∃ t, exec f.1 s = .next t ∧ Effect s t f.2.2 [] [] ∧
    t.log = s.log ∧ t.clock + (encode f.1).length = s.clock + 2

/-- Each push, of one byte and three cycles, completes in every state: one write, of A, X, Y or the status image with B =
1 and bit 5 = 1, to 0x0100 + S, where RAM then holds it; S is one less modulo 256; no flag, no other register, no other
byte changes. The stack primitive and the old I in the image are marked by the spec as its own knowledge (R62, R35; log
entry 17). What is said of the latches, the device replies, unchanged memory and cycles holds where no address touched is
a device's. Cycles count the fetches, which exec follows. Stated: R140, R141, R233, R234. -/
def Obligations.PushesWriteTheStackSlot : Prop :=
  ∀ s : State, ∀ f ∈ [(Instr.pha, 0x48#8, s.a), (.phx, 0xDA, s.x), (.phy, 0x5A, s.y), (.php, 0x08, statusImage s.p true)],
    encode f.1 = [f.2.1] ∧ ∃ t, exec f.1 s = .next t ∧
      Effect s t { regsOf s with sp := s.sp - 1 } [stackSlot s.sp] [stackSlot s.sp] ∧
      RamHolds s t (stackSlot s.sp) f.2.2 ∧ t.log = .write (stackSlot s.sp) f.2.2 :: s.log ∧
      (NoDevice s [stackSlot s.sp] → t.clock + (encode f.1).length = s.clock + 3)

/-- Each pull, of one byte and four cycles, completes in every state: S is one more modulo 256, the byte read once at the
new stack slot goes to A, X or Y with Z and N from it, or for PLP its bits 7, 6, 3, 2, 1, 0 go to N, V, D, I, Z, C;
nothing else changes. The stack primitive and the PLP row are marked by the spec as its own knowledge (R62, R36; log entry
17). What is said of the latches, the device replies, unchanged memory and cycles holds where no address touched is a
device's. Cycles count the fetches, which exec follows. Stated: R142, R235, R236. -/
def Obligations.PullsLoadFromTheStack : Prop :=
  ∀ s : State, ∃ b : Byte,
    (NoDevice s [stackSlot (s.sp + 1)] → b = s.mem.read (stackSlot (s.sp + 1)).toNat) ∧
    ∀ f ∈ pullForms s b, encode f.1 = [f.2.1] ∧ ∃ t, exec f.1 s = .next t ∧
      Effect s t f.2.2 [] [stackSlot (s.sp + 1)] ∧ t.log = .read (stackSlot (s.sp + 1)) b :: s.log ∧
      (NoDevice s [stackSlot (s.sp + 1)] → t.clock + (encode f.1).length = s.clock + 4)

/-- Every row of AND, ORA, EOR completes in every state: A holds the bitwise combination, Z and N are those of it; C, V,
I, D, the other registers and all of memory are unchanged. What is said of the latches, the device replies, unchanged
memory and cycles holds where no address touched is a device's. Derived: R154, R155, R156, R231. -/
def Obligations.LogicWritesAccumulatorAndNZ : Prop :=
  ∀ (v z : Byte) (a : Addr) (s : State),
    (∀ f ∈ andForms v z a, ∃ t, exec f.1 s = .next t ∧
      Effect s t { regsOf s with a := s.a &&& f.2.value s, p := nz s.p (s.a &&& f.2.value s) } [] (srcTouches f.2 s)) ∧
    (∀ f ∈ oraForms v z a, ∃ t, exec f.1 s = .next t ∧
      Effect s t { regsOf s with a := s.a ||| f.2.value s, p := nz s.p (s.a ||| f.2.value s) } [] (srcTouches f.2 s)) ∧
    (∀ f ∈ eorForms v z a, ∃ t, exec f.1 s = .next t ∧
      Effect s t { regsOf s with a := s.a ^^^ f.2.value s, p := nz s.p (s.a ^^^ f.2.value s) } [] (srcTouches f.2 s))

/-- Every memory row of BIT completes: Z says whether A & M is 0, N and V are bits 7 and 6 of M, C, I, D stay; BIT #
writes Z only; no register and no byte of memory changes. What is said of the latches, the device replies, unchanged
memory and cycles holds where no address touched is a device's. Derived: R157, R243. -/
def Obligations.BitTestsWriteFlagsOnly : Prop :=
  ∀ (v z : Byte) (a : Addr) (s : State),
    (∀ f ∈ bitForms z a, let m := f.2.value s
      ∃ t, exec f.1 s = .next t ∧ Effect s t { regsOf s with
        p := { s.p with z := decide (s.a &&& m = 0), n := m.getLsbD 7, v := m.getLsbD 6 } } [] (srcTouches f.2 s)) ∧
    (∃ t, exec (.bitImm v) s = .next t ∧
      Effect s t { regsOf s with p := { s.p with z := decide (s.a &&& v = 0) } } [] [])

/-- Every row of ADC completes with D = 0: A is (A + M + C) mod 256, C says whether the sum reaches 256, V whether the
signed sum leaves -128..127, Z and N describe the result; nothing else changes. What is said of the latches, the device
replies, unchanged memory and cycles holds where no address touched is a device's. Derived: R150, R158 (binary mode). -/
def Obligations.BinaryAddition : Prop :=
  ∀ (v z : Byte) (a : Addr) (s : State), s.p.d = false → ∀ f ∈ adcForms v z a,
    let m := f.2.value s
    let r := BitVec.ofNat 8 (s.a.toNat + m.toNat + s.p.c.toNat)
    let signed := s.a.toInt + m.toInt + (s.p.c.toNat : Int)
    let c := decide (256 ≤ s.a.toNat + m.toNat + s.p.c.toNat)
    let v := decide (signed < -128 ∨ 127 < signed)
    ∃ t, exec f.1 s = .next t ∧
      Effect s t { regsOf s with a := r, p := { nz s.p r with c := c, v := v } } [] (srcTouches f.2 s)

/-- Every row of SBC completes with D = 0: A is (A - M - (1 - C)) mod 256, C says whether A reaches M + (1 - C), V whether
the signed difference leaves -128..127, Z and N describe the result; nothing else changes. What is said of the latches,
the device replies, unchanged memory and cycles holds where no address touched is a device's. Derived: R150, R159 (binary
mode). -/
def Obligations.BinarySubtraction : Prop :=
  ∀ (v z : Byte) (a : Addr) (s : State), s.p.d = false → ∀ f ∈ sbcForms v z a,
    let m := f.2.value s
    let borrow := 1 - s.p.c.toNat
    let r := BitVec.ofInt 8 ((s.a.toNat : Int) - m.toNat - borrow)
    let signed := s.a.toInt - m.toInt - (borrow : Int)
    let c := decide (m.toNat + borrow ≤ s.a.toNat)
    let v := decide (signed < -128 ∨ 127 < signed)
    ∃ t, exec f.1 s = .next t ∧
      Effect s t { regsOf s with a := r, p := { nz s.p r with c := c, v := v } } [] (srcTouches f.2 s)

/-- Every row of ADC and SBC completes with D = 1: A and the four flags are those of AdcDecimalNMOS, SbcDecimalNMOS (on
NMOS), AdcDecimalCMOS, SbcDecimalCMOS (on CMOS), transcribed from the rules with their masks; I, D, the other registers
and memory are unchanged. That both variants have decimal mode, by these default functions, operands that are not valid
BCD included, is the model's choice (log entry 13). Rests in part on what the spec marks as its own knowledge or decision
(log entry 17). What is said of the latches, the device replies, unchanged memory and cycles holds where no address
touched is a device's. Derived: R151, R152, R158, R159, R246, R247, log entry 13, log entry 17. -/
def Obligations.DecimalFunctions : Prop :=
  ∀ (v z : Byte) (a : Addr) (s : State), s.p.d = true →
    (∀ f ∈ adcForms v z a, ∃ t, exec f.1 s = .next t ∧
      Effect s t (decimalRegs s (match s.variant with
        | .nmos => specAdcNmos s.a.toNat (f.2.value s).toNat s.p.c.toNat
        | .cmos => specAdcCmos s.a.toNat (f.2.value s).toNat s.p.c.toNat)) [] (srcTouches f.2 s)) ∧
    (∀ f ∈ sbcForms v z a, ∃ t, exec f.1 s = .next t ∧
      Effect s t (decimalRegs s (match s.variant with
        | .nmos => specSbcNmos s.a.toNat (f.2.value s).toNat s.p.c.toNat
        | .cmos => specSbcCmos s.a.toNat (f.2.value s).toNat s.p.c.toNat)) [] (srcTouches f.2 s))

/-- In either variant, with D = 1 and both operands packed BCD: ADC leaves in A the packed BCD of the sum modulo 100 and
in C whether it reached 100; SBC leaves the packed BCD of the difference modulo 100 and C = 1 exactly when there is no
decimal borrow. That both variants have decimal mode is the model's choice (log entry 13). Rests in part on what the spec
marks as its own knowledge or decision (log entry 17). Derived: 43_logic_arith.md section 1, R151, R152, R246, R247, log
entry 13, log entry 17. -/
def Obligations.DecimalArithmeticIsCorrectOnBcd : Prop :=
  ∀ (v z : Byte) (a : Addr) (s : State), s.p.d = true → isBcd s.a →
    (∀ f ∈ adcForms v z a, isBcd (f.2.value s) → ∃ t, exec f.1 s = .next t ∧
      let sum := ofBcd s.a + ofBcd (f.2.value s) + s.p.c.toNat
      isBcd t.a ∧ ofBcd t.a = sum % 100 ∧ t.p.c = decide (100 ≤ sum)) ∧
    (∀ f ∈ sbcForms v z a, isBcd (f.2.value s) → ∃ t, exec f.1 s = .next t ∧
      let subtrahend := ofBcd (f.2.value s) + (1 - s.p.c.toNat)
      isBcd t.a ∧ (ofBcd t.a + subtrahend) % 100 = ofBcd s.a ∧ t.p.c = decide (subtrahend ≤ ofBcd s.a))

/-- Every row of CMP, CPX, CPY completes in every state, D = 1 included: C, Z, N as the rule says; V, I, D, every register
and all of memory unchanged. What is said of the latches, the device replies, unchanged memory and cycles holds where no
address touched is a device's. Stated: R153. -/
def Obligations.ComparesWriteCZN : Prop :=
  ∀ (v z : Byte) (a : Addr) (s : State),
    (∀ f ∈ cmpForms v z a, ∃ t, exec f.1 s = .next t ∧
      Effect s t { regsOf s with p := compareFlags s.p s.a (f.2.value s) } [] (srcTouches f.2 s)) ∧
    (∀ f ∈ cpxForms v z a, ∃ t, exec f.1 s = .next t ∧
      Effect s t { regsOf s with p := compareFlags s.p s.x (f.2.value s) } [] (srcTouches f.2 s)) ∧
    (∀ f ∈ cpyForms v z a, ∃ t, exec f.1 s = .next t ∧
      Effect s t { regsOf s with p := compareFlags s.p s.y (f.2.value s) } [] (srcTouches f.2 s))

/-- Every row of INC and DEC, the accumulator rows included, completes in every state: the operand is rewritten with the
value one more or one less modulo 256, Z and N are those of it, no other flag, register or byte changes. What is said of
the latches, the device replies, unchanged memory and cycles holds where no address touched is a device's. Derived: R170,
R171, R172, R241, R242. -/
def Obligations.IncrementAndDecrementOperands : Prop :=
  ∀ (z : Byte) (a : Addr) (s : State),
    (∀ f ∈ incForms z a, Rewrites s f (fun m => m + 1) (fun m => nz s.p (m + 1))) ∧
    (∀ f ∈ decForms z a, Rewrites s f (fun m => m - 1) (fun m => nz s.p (m - 1)))

/-- Each, of one byte and two cycles, completes in every state: the index register is one more or one less modulo 256, Z
and N are those of it; no other flag, register or byte changes and nothing is accessed. Cycles count the fetches, which
exec follows. Stated: R173, R174, R175, R176. -/
def Obligations.IndexIncrementsAndDecrements : Prop :=
  ∀ s : State, ∀ f ∈ indexForms s, encode f.1 = [f.2.1] ∧ ∃ t, exec f.1 s = .next t ∧ Effect s t f.2.2 [] [] ∧
    t.log = s.log ∧ t.clock + (encode f.1).length = s.clock + 2

/-- Every row of the four, the accumulator rows included, completes in every state: the operand is rewritten with twice
its value modulo 256 (plus the old C for ROL) or half of it (plus 128 times the old C for ROR); C is the bit shifted out,
Z and N are those of the result; V, I, D, other registers and bytes unchanged. What is said of the latches, the device
replies, unchanged memory and cycles holds where no address touched is a device's. Derived: R170, R177, R178, R179, R180.
-/
def Obligations.ShiftsAndRotates : Prop :=
  ∀ (z : Byte) (a : Addr) (s : State),
    let carry := s.p.c.toNat
    (∀ f ∈ aslForms z a, Rewrites s f (fun m => BitVec.ofNat 8 (2 * m.toNat))
      (fun m => { nz s.p (BitVec.ofNat 8 (2 * m.toNat)) with c := decide (128 ≤ m.toNat) })) ∧
    (∀ f ∈ lsrForms z a, Rewrites s f (fun m => BitVec.ofNat 8 (m.toNat / 2))
      (fun m => { nz s.p (BitVec.ofNat 8 (m.toNat / 2)) with c := decide (m.toNat % 2 = 1) })) ∧
    (∀ f ∈ rolForms z a, Rewrites s f (fun m => BitVec.ofNat 8 (2 * m.toNat + carry))
      (fun m => { nz s.p (BitVec.ofNat 8 (2 * m.toNat + carry)) with c := decide (128 ≤ m.toNat) })) ∧
    (∀ f ∈ rorForms z a, Rewrites s f (fun m => BitVec.ofNat 8 (m.toNat / 2 + 128 * carry))
      (fun m => { nz s.p (BitVec.ofNat 8 (m.toNat / 2 + 128 * carry)) with c := decide (m.toNat % 2 = 1) }))

/-- Every row of TRB and TSB completes in every state: the byte at the effective address, if it is RAM, holds M & ~A or M
| A, Z says whether A & M was 0, no other flag, no register and no other byte changes. What is said of the latches, the
device replies, unchanged memory and cycles holds where no address touched is a device's. Derived: R238, R239. -/
def Obligations.TestAndChangeBits : Prop :=
  ∀ (z : Byte) (a : Addr) (s : State),
    (∀ f ∈ trbForms z a, Rewrites s f (fun m => m &&& ~~~s.a) (fun m => { s.p with z := decide (s.a &&& m = 0) })) ∧
    (∀ f ∈ tsbForms z a, Rewrites s f (fun m => m ||| s.a) (fun m => { s.p with z := decide (s.a &&& m = 0) }))

/-- Each row of JMP completes in every state and changes PC alone: abs to the operand, with no access; ind to the word
read at the operand, low byte first, whose high byte comes from the same page on NMOS and from the next address on CMOS;
iax to the word read at operand + X modulo 65536; no other access is made. Rests in part on what the spec marks as its own
knowledge or decision (log entry 17). What is said of the latches, the device replies, unchanged memory and cycles holds
where no address touched is a device's. Derived: R60, R110, R116, R190, R244, R245, log entry 17. -/
def Obligations.JumpsLoadPc : Prop :=
  ∀ (a : Addr) (s : State),
    let hi := BitVec.ofNat 16 (match s.variant with
      | .nmos => a.toNat / 256 * 256 + (a.toNat + 1) % 256
      | .cmos => a.toNat + 1)
    let b := BitVec.ofNat 16 (a.toNat + s.x.toNat)
    (∃ t, exec (.jmpAbs a) s = .next t ∧ Effect s t { regsOf s with pc := a } [] [] ∧ t.log = s.log) ∧
    (∃ t, exec (.jmpInd a) s = .next t ∧ Effect s t { regsOf s with pc := t.pc } [] [a, hi] ∧
      PcFrom s t a hi 0 [a, hi] s.log) ∧
    (∃ t, exec (.jmpIax a) s = .next t ∧ Effect s t { regsOf s with pc := t.pc } [] [b, b + 1] ∧
      PcFrom s t b (b + 1) 0 [b, b + 1] s.log)

/-- JSR completes in every state (PC already past its three bytes): PC is the operand, S is two less; two writes are made,
the high byte of PC - 1 to 0x0100 + S and then the low byte to 0x0100 + S - 1, where RAM then holds them; no flag, no
other register or byte changes. Rests in part on what the spec marks as its own knowledge or decision (log entry 17). What
is said of the latches, the device replies, unchanged memory and cycles holds where no address touched is a device's.
Derived: R60, R62, R191, log entry 17. -/
def Obligations.JsrPushesReturnMinusOne : Prop :=
  ∀ (a : Addr) (s : State), ∃ t, exec (.jsr a) s = .next t ∧
    let slots := [stackSlot s.sp, stackSlot (s.sp - 1)]
    let high := BitVec.ofNat 8 ((s.pc - 1).toNat / 256)
    let low := BitVec.ofNat 8 (s.pc - 1).toNat
    Effect s t { regsOf s with pc := a, sp := s.sp - 2 } slots slots ∧
    t.log = .write (stackSlot (s.sp - 1)) low :: .write (stackSlot s.sp) high :: s.log ∧
    (NoDevice s slots → RamHolds s t (stackSlot s.sp) high ∧ RamHolds s t (stackSlot (s.sp - 1)) low)

/-- RTS, of one byte and six cycles, completes in every state: S is two more; two reads are made, of 0x0100 + S + 1 and
then 0x0100 + S + 2, and PC is the word they return, low byte first, plus one; no flag, no other register, no byte of
memory changes. The stack primitive is marked by the spec as its own knowledge (R62; log entry 17). What is said of the
latches, the device replies, unchanged memory and cycles holds where no address touched is a device's. Cycles count the
fetches, which exec follows. Stated: R192. -/
def Obligations.RtsPullsAndAddsOne : Prop :=
  encode .rts = [0x60] ∧
  ∀ s : State, ∃ t, exec .rts s = .next t ∧
    let slots := [stackSlot (s.sp + 1), stackSlot (s.sp + 2)]
    Effect s t { regsOf s with pc := t.pc, sp := s.sp + 2 } [] slots ∧
    PcFrom s t (stackSlot (s.sp + 1)) (stackSlot (s.sp + 2)) 1 slots s.log ∧
    (NoDevice s slots → t.clock + (encode .rts).length = s.clock + 6)

/-- With page 1 RAM, over a canonical memory: JSR, then RTS from anywhere with S and memory as JSR left them, leaves PC at
the instruction after the JSR and S as before, wherever S stood. Rests in part on what the spec marks as its own knowledge
or decision (log entry 17). Derived: R62, R191, R192, R202, log entry 17. -/
def Obligations.RtsReturnsBehindTheJsr : Prop :=
  ∀ (a pc : Addr) (s t u : State), s.mem.wf → StackIsRam s →
    exec (.jsr a) s = .next t → exec .rts (t.setPc pc) = .next u → u.pc = s.pc ∧ u.sp = s.sp

/-- Each branch, of two bytes, completes in every state (PC already past them): when its condition holds, PC is PC + the
signed offset modulo 65536 and it takes 3 cycles, 4 when that is on another page than the next instruction; else PC stays
and it takes 2; no flag, no register and no byte of memory changes and nothing is accessed. That the offset counts from
the next instruction is marked by the spec as its own knowledge (R113; log entry 17). Cycles count the fetches, which exec
follows. Stated: R193, R194, R195, R196, R197, R198, R199, R200, R201, R232, R311. -/
def Obligations.BranchesTestOneFlag : Prop :=
  ∀ (off : Byte) (s : State), ∀ f ∈ branchForms off s.p, encode f.1 = [f.2.1, off] ∧ ∃ t, exec f.1 s = .next t ∧
    Effect s t { regsOf s with pc := t.pc } [] [] ∧ t.log = s.log ∧
    (t.pc.toNat : Int) = (if f.2.2 then ((s.pc.toNat : Int) + off.toInt) % 65536 else s.pc.toNat) ∧
    t.clock + (encode f.1).length = s.clock + if f.2.2 then (if t.pc.toNat / 256 = s.pc.toNat / 256 then 3 else 4) else 2

/-- Each, of one byte and two cycles, completes in every state; nothing but the flag and the clock changes, and nothing is
accessed. Cycles count the fetches, which exec follows. Stated: R210, R211, R215, R216. -/
def Obligations.FlagInstructionsWriteOneFlag : Prop :=
  ∀ s : State, ∀ f ∈ flagForms s.p, encode f.1 = [f.2.1] ∧ ∃ t, exec f.1 s = .next t ∧
    Effect s t { regsOf s with p := f.2.2 } [] [] ∧ t.log = s.log ∧ t.clock + (encode f.1).length = s.clock + 2

/-- BRK completes in every state (PC at the byte after the opcode): S is three less; three writes to the three slots, of
the high and low bytes of PC + 1 and of the status image with B = 1 and the old I, then the two reads of the vector; I is
1, D is 0 on CMOS, PC is the word read at 0xFFFE; nothing else changes; it takes seven cycles. Rests in part on what the
spec marks as its own knowledge or decision (log entry 17). What is said of the latches, the device replies, unchanged
memory and cycles holds where no address touched is a device's. Cycles count the fetches, which exec follows. Derived:
R35, R60, R220, R249, R262, log entry 17. -/
def Obligations.BrkEntersTheHandler : Prop :=
  ∀ s : State, ∃ t, exec .brk s = .next t ∧ EntersHandler s t (s.pc + 1) true 0xFFFE ∧
    (NoDevice s (entryTouches s 0xFFFE) → t.nmiPending = s.nmiPending ∧ t.irqLine = s.irqLine ∧
      t.clock + (encode .brk).length = s.clock + 7)

/-- RTI completes in every state: S is three more; three reads are made, of the three slots above S in order; the flags
are bits 7, 6, 3, 2, 1, 0 of the first byte and PC the word of the other two; A, X, Y and all of memory unchanged; it
takes six cycles. Rests in part on what the spec marks as its own knowledge or decision (log entry 17). What is said of
the latches, the device replies, unchanged memory and cycles holds where no address touched is a device's. Cycles count
the fetches, which exec follows. Derived: R36, R60, R62, R221, log entry 17. -/
def Obligations.RtiRestoresFlagsAndPc : Prop :=
  ∀ s : State, ∃ t b, exec .rti s = .next t ∧
    let slots := [stackSlot (s.sp + 1), stackSlot (s.sp + 2), stackSlot (s.sp + 3)]
    Effect s t { regsOf s with pc := t.pc, p := flagsOfByte b, sp := s.sp + 3 } [] slots ∧
    PcFrom s t (stackSlot (s.sp + 2)) (stackSlot (s.sp + 3)) 0 slots (.read (stackSlot (s.sp + 1)) b :: s.log) ∧
    (NoDevice s slots → b = s.mem.read (stackSlot (s.sp + 1)).toNat ∧ t.clock + (encode .rti).length = s.clock + 6)

/-- With page 1 RAM and neither vector a device's, over a canonical memory: after an NMI or an IRQ entry, RTI run with S
and memory as the entry left them restores PC, every flag (I and D among them) and S, wherever S stood; after BRK it
restores the flags and S and leaves PC one past the byte after the opcode. Rests in part on what the spec marks as its own
knowledge or decision (log entry 17). Derived: R274, R220, R221, R269, log entry 17. -/
def Obligations.RtiUndoesAnEntry : Prop :=
  ∀ (pc : Addr) (s t u : State), s.mem.wf → StackIsRam s → NoDevice s [0xFFFA, 0xFFFB, 0xFFFE, 0xFFFF] →
    exec .rti (t.setPc pc) = .next u →
    (t = s.nmiEntry ∨ t = s.irqEntry → u.pc = s.pc ∧ u.p = s.p ∧ u.sp = s.sp) ∧
    (exec .brk s = .next t → u.pc = s.pc + 1 ∧ u.p = s.p ∧ u.sp = s.sp)

/-- When the core runs, no NMI is pending, an IRQ is absent or masked, and the bytes the fetches return decode to i, the
step is exec of i at the state after exactly i's bytes were fetched; PC is then past them. Derived: R284, R84, R86. -/
def Obligations.StepRunsTheDecodedInstruction : Prop :=
  ∀ (s : State) (i : Instr) (rest : List Byte), s.run = .running → s.nmiPending = false →
    (s.irqLine = true → s.p.i = true) → decode s.variant (State.fetchedBytes 3 s) = .ok (i, rest) →
    Machine.step s = exec i (State.afterFetches (encode i).length s) ∧
    regsOf (State.afterFetches (encode i).length s) =
      { regsOf s with pc := s.pc + BitVec.ofNat 16 (encode i).length }

/-- n fetches make n reads, of PC, PC + 1, ... modulo 65536 in that order, return what they return, and advance PC by n;
where none of these addresses is a device's, the bytes are those of memory and the fetches take n cycles; run, err and no
byte of memory changes. What is said of the latches, the device replies, unchanged memory and cycles holds where no
address touched is a device's. Derived: R60, R66, R84, R315. -/
def Obligations.FetchReadsConsecutiveBytes : Prop :=
  ∀ (s : State) (n : Nat),
    let run : List Addr := (List.range n).map (fun k => BitVec.ofNat 16 (s.pc.toNat + k))
    (State.fetchedBytes n s).length = n ∧
    (State.afterFetches n s).log = (List.zipWith Access.read run (State.fetchedBytes n s)).reverse ++ s.log ∧
    (State.afterFetches n s).pc.toNat = (s.pc.toNat + n) % 65536 ∧
    Effect s (State.afterFetches n s) { regsOf s with pc := (State.afterFetches n s).pc } [] run ∧
    (NoDevice s run → State.fetchedBytes n s = run.map (fun b => s.mem.read b.toNat) ∧
      (State.afterFetches n s).clock = s.clock + n)

/-- When the core runs with no interrupt to service and the byte fetched at PC is illegal for the variant: the step leaves
run = Halted and err = (opcode, PC), all registers and flags as they were, one read made; no further step leaves that
state; where PC is not a device's the latches and memory are unchanged and one cycle is consumed. Stated: R261. -/
def Obligations.IllegalOpcodeHalts : Prop :=
  ∀ s : State, s.run = .running → s.nmiPending = false → (s.irqLine = true → s.p.i = true) →
    (match s.variant with | .nmos => s.readByte s.pc ∈ illegalNmos | .cmos => s.readByte s.pc ∈ illegalCmos) →
    ∃ t, Machine.step s = .next t ∧ Machine.step t = .fault (.halted (some (s.readByte s.pc, s.pc))) ∧
      regsOf t = regsOf s ∧ t.run = .halted ∧ t.err = some (s.readByte s.pc, s.pc) ∧
      t.variant = s.variant ∧ t.regions = s.regions ∧ t.log = .read s.pc (s.readByte s.pc) :: s.log ∧
      (NoDevice s [s.pc] → t.nmiPending = s.nmiPending ∧ t.irqLine = s.irqLine ∧ t.clock = s.clock + 1 ∧
        ∀ n, t.mem.read n = s.mem.read n)

/-- When the core runs and an NMI is pending, the step is the NMI entry: three writes, of PC and of the status with B = 0
and the old I, then the two reads of the vector; I is 1, D is 0 on CMOS, PC is the word read at 0xFFFA, the NMI latch is
cleared, the IRQ level kept, seven cycles consumed. Rests in part on what the spec marks as its own knowledge or decision
(log entry 17). What is said of the latches, the device replies, unchanged memory and cycles holds where no address
touched is a device's. Derived: R264, R267, R268, R269, R270, R272, R284, R249, R313, 92_eei_decisions.md D22, log entry
17. -/
def Obligations.NmiIsServicedFirst : Prop :=
  ∀ s : State, s.run = .running → s.nmiPending = true → ∃ t, Machine.step s = .next t ∧
    EntersHandler s t s.pc false 0xFFFA ∧
    (NoDevice s (entryTouches s 0xFFFA) → t.nmiPending = false ∧ t.irqLine = s.irqLine ∧ t.clock = s.clock + 7)

/-- When the core runs, no NMI is pending, the IRQ line is 1 and I = 0, the step is the IRQ entry: the accesses and
effects of the NMI entry, through 0xFFFE, with both latches left as they were. Rests in part on what the spec marks as its
own knowledge or decision (log entry 17). What is said of the latches, the device replies, unchanged memory and cycles
holds where no address touched is a device's. Derived: R267, R268, R269, R271, R272, R284, R249, R313, 92_eei_decisions.md
D22, log entry 17. -/
def Obligations.IrqIsServicedWhenUnmasked : Prop :=
  ∀ s : State, s.run = .running → s.nmiPending = false → s.irqLine = true → s.p.i = false → ∃ t, Machine.step s = .next t ∧
    EntersHandler s t s.pc false 0xFFFE ∧
    (NoDevice s (entryTouches s 0xFFFE) → t.nmiPending = false ∧ t.irqLine = true ∧ t.clock = s.clock + 7)

/-- When the core runs, no NMI is pending, I = 1 and no device is in the map, the step with the IRQ line high and the step
with it low answer states that differ in the IRQ line alone. Derived: R29, R265, R267. -/
def Obligations.MaskedIrqWaits : Prop :=
  ∀ s t : State, s.run = .running → s.nmiPending = false → s.p.i = true → AllPlain s →
    Machine.step (s.setIrq false) = .next t → Machine.step (s.setIrq true) = .next (t.setIrq true)

/-- In Uninitialized, Resetting and Halted the step answers a fault; in Halted the fault carries the error record, and in
Running it never faults or refuses. Derived: R284, R285, log entry 11. -/
def Obligations.StepOutsideRunningIsStuck : Prop :=
  ∀ s : State,
    (s.run = .uninitialized → Machine.step s = .fault .notReset) ∧
    (s.run = .resetting → Machine.step s = .fault .insideReset) ∧
    (s.run = .halted → Machine.step s = .fault (.halted s.err)) ∧
    (s.run = .running → ∃ t, Machine.step s = .next t)

/-- From any state: A, X, Y, C, Z, V, N kept, D kept on NMOS and 0 on CMOS, I = 1, S = 0xFD, run = Running, err empty,
exactly the two vector reads made, 0xFFFC and then 0xFFFD, and PC the word they return, low byte first; where neither is a
device's no byte of memory changed, the NMI latch 0, the IRQ level kept, the clock advanced by 7. Rests in part on what
the spec marks as its own knowledge or decision (log entry 17). Derived: R300, R301, R249, log entry 17. -/
def Obligations.ResetFromAnyState : Prop :=
  ∀ s : State,
    regsOf s.doReset = { regsOf s with sp := 0xFD, pc := s.doReset.pc, p := maskedFlags s } ∧
    s.doReset.run = .running ∧ s.doReset.err = none ∧ s.doReset.variant = s.variant ∧ s.doReset.regions = s.regions ∧
    PcFrom s s.doReset 0xFFFC 0xFFFD 0 [0xFFFC, 0xFFFD] s.log ∧
    (NoDevice s [0xFFFC, 0xFFFD] → s.doReset.nmiPending = false ∧ s.doReset.irqLine = s.irqLine ∧ s.doReset.clock = s.clock + 7 ∧ ∀ n, s.doReset.mem.read n = s.mem.read n)

/-- State.reset has S = 0xFD, I = 1, D = 0 (CMOS), run = Running, no NMI pending, the IRQ line 0, seven cycles on the
clock, an empty error record. The register values the spec leaves unspecified (log entry 2) are not stated. Rests in part
on what the spec marks as its own knowledge or decision (log entry 17). Derived: R43 (the rows that give a value), R300,
log entry 17. -/
def Obligations.ResetStateValues : Prop :=
  State.reset.sp = 0xFD ∧ State.reset.p.i = true ∧ (State.reset.variant = .cmos → State.reset.p.d = false) ∧
    State.reset.run = .running ∧ State.reset.nmiPending = false ∧ State.reset.irqLine = false ∧ State.reset.clock = 7 ∧
    State.reset.err = none ∧
    State.reset.pc = mkAddr (State.reset.mem.read 0xFFFC) (State.reset.mem.read 0xFFFD)

/-- Each changes its own latch and nothing else; doing it twice is doing it once. Derived: R264, R265, R286. -/
def Obligations.LatchOperationsAreIdempotent : Prop :=
  ∀ s : State,
    s.assertNMI = { s with nmiPending := true } ∧ s.assertNMI.assertNMI = s.assertNMI ∧
    s.assertIRQ = { s with irqLine := true } ∧ s.assertIRQ.assertIRQ = s.assertIRQ ∧
    s.clearIRQ = { s with irqLine := false } ∧ s.clearIRQ.clearIRQ = s.clearIRQ

/-- Over a canonical memory: a range inside the address space is stored, byte i at address + i, every other byte and
everything else unchanged; a range that would pass 0xFFFF is refused. That the bytes are stored in ROM, and behind the
window at a device address, where no read finds them, and that the device is not invoked, is the model's choice (log entry
18). Derived: R54, 92_eei_decisions.md D18, log entry 18. -/
def Obligations.WriteRangeStoresEachByte : Prop :=
  ∀ (s : State) (addr : Nat) (bytes : List Byte), s.mem.wf →
    (65536 < addr + bytes.length → s.writeRange addr bytes = none) ∧
    (addr + bytes.length ≤ 65536 → ∃ t, s.writeRange addr bytes = some t ∧ { t with mem := s.mem } = s ∧
      (∀ k b, bytes[k]? = some b → t.mem.read (addr + k) = b) ∧
      (∀ n, n < addr ∨ addr + bytes.length ≤ n → t.mem.read n = s.mem.read n))

/-- If memory is in canonical form, run is not Resetting, and err is set exactly when run is Halted, then the same holds
after any step that answers a next state. Derived: R44, log entry 1. -/
def Obligations.StepKeepsTheInvariant : Prop :=
  ∀ s t : State, Inv s → Machine.step s = .next t → Inv t

/-- State.reset's memory is canonical, its run state is not Resetting, and its error record is empty. Derived: R44, R43.
-/
def Obligations.ResetStateHasTheInvariant : Prop :=
  Inv State.reset

/-- From any state that meets the invariant, every state reached by steps and by host operations (reset, latches, Read,
Write, WriteRange) meets it. Derived: R8, R44, R71. -/
def Obligations.ReachableStatesHaveTheInvariant : Prop :=
  ∀ s t : State, Inv s → Reaches s t → Inv t

/-- Every state reached by steps and by host operations (reset, latches, Read, Write, WriteRange) has the variant and the
map it started with. Derived: R42, R55. -/
def Obligations.VariantAndMapNeverChange : Prop :=
  ∀ s t : State, Reaches s t → t.variant = s.variant ∧ t.regions = s.regions

/-- In every step that answers a next state, the clock advances by at least 1 and by at least the number of accesses
recorded in it. Derived: R315, R40. -/
def Obligations.ClockCoversEveryAccess : Prop :=
  ∀ s t : State, Machine.step s = .next t →
    s.clock + 1 ≤ t.clock ∧ s.clock + (t.log.length - s.log.length) ≤ t.clock ∧ ∃ new, t.log = new ++ s.log

/-- Coherent says that a RAM byte the record has a write to holds the last value written, and that every recorded read of
RAM returned the last value written before it. With no device in the map, over a canonical memory, every step keeps it.
Derived: R63, R64, R68. -/
def Obligations.RamIsSequentiallyConsistent : Prop :=
  ∀ s t : State, s.mem.wf → AllPlain s → Coherent s → Machine.step s = .next t → Coherent t

/-- For every instruction not among the listed writers of C, Z, I, D, V or N, that flag is the same after exec as before.
Derived: 10_state.md section 5, R27, R28, R29, R30, R33, R34. -/
def Obligations.FlagsHaveOnlyTheirWriters : Prop :=
  ∀ (i : Instr) (s t : State), exec i s = .next t →
    (mnemonic i ∉ ["ADC", "SBC", "CMP", "CPX", "CPY", "ASL", "ROL", "LSR", "ROR", "CLC", "SEC", "PLP", "RTI"] →
      t.p.c = s.p.c) ∧
    (mnemonic i ∉ ["LDA", "LDX", "LDY", "TAX", "TAY", "TXA", "TYA", "TSX", "PLA", "AND", "ORA", "EOR", "ADC", "SBC", "CMP",
      "CPX", "CPY", "INC", "DEC", "INX", "INY", "DEX", "DEY", "ASL", "LSR", "ROL", "ROR", "BIT", "PLP", "RTI", "PLX", "PLY",
      "TSB", "TRB"] → t.p.z = s.p.z) ∧
    (mnemonic i ∉ ["SEI", "CLI", "PLP", "RTI", "BRK"] → t.p.i = s.p.i) ∧
    (mnemonic i ∉ ["SED", "CLD", "PLP", "RTI", "BRK"] ∨ mnemonic i = "BRK" ∧ s.variant = .nmos → t.p.d = s.p.d) ∧
    (mnemonic i ∉ ["ADC", "SBC", "BIT", "CLV", "PLP", "RTI"] → t.p.v = s.p.v) ∧
    (mnemonic i ∉ ["LDA", "LDX", "LDY", "TAX", "TAY", "TXA", "TYA", "TSX", "PLA", "AND", "ORA", "EOR", "ADC", "SBC", "CMP",
      "CPX", "CPY", "INC", "DEC", "INX", "INY", "DEX", "DEY", "ASL", "LSR", "ROL", "ROR", "BIT", "PLP", "RTI", "PLX", "PLY"] →
      t.p.n = s.p.n)

/-- For every instruction and state: exec answers a next state whose run, err, variant and map are as before, in which a
pending NMI is still pending, and with no device in the map both latches are as before. Derived: R222, R38, R39. -/
def Obligations.InstructionsReachNoCoreControlState : Prop :=
  ∀ (i : Instr) (s : State), ∃ t, exec i s = .next t ∧ t.run = s.run ∧ t.err = s.err ∧ t.variant = s.variant ∧
    t.regions = s.regions ∧ (s.nmiPending = true → t.nmiPending = true) ∧
    (AllPlain s → t.nmiPending = s.nmiPending ∧ t.irqLine = s.irqLine)

/-- For every instruction not among the listed writers of a register, the register is the same after exec as before.
Derived: R21, R22, R23, R24. -/
def Obligations.StackPointerHasOnlyItsWriters : Prop :=
  ∀ (i : Instr) (s t : State), exec i s = .next t →
    (mnemonic i ∉ ["TXS", "PHA", "PHP", "PLA", "PLP", "PHX", "PHY", "PLX", "PLY", "JSR", "RTS", "BRK", "RTI"] → t.sp = s.sp) ∧
    (mnemonic i ∉ ["LDA", "TXA", "TYA", "PLA", "AND", "ORA", "EOR", "ADC", "SBC", "INC", "DEC", "ASL", "LSR", "ROL", "ROR"] →
      t.a = s.a) ∧
    (mnemonic i ∉ ["LDX", "TAX", "TSX", "INX", "DEX", "PLX"] → t.x = s.x) ∧
    (mnemonic i ∉ ["LDY", "TAY", "INY", "DEY", "PLY"] → t.y = s.y) ∧
    (mnemonic i ∉ ["JMP", "JSR", "RTS", "BCC", "BCS", "BEQ", "BMI", "BNE", "BPL", "BVC", "BVS", "BRA", "BRK", "RTI"] →
      t.pc = s.pc)

/-- With no device in the map, for every instruction not among those that write memory, every byte reads as before; for
those that push, every byte outside page 1 reads as before. Derived: R60, R62, R118. -/
def Obligations.MemoryChangesOnlyInStores : Prop :=
  ∀ (i : Instr) (s t : State) (n : Nat), AllPlain s → exec i s = .next t →
    (mnemonic i ∉ ["STA", "STX", "STY", "STZ", "INC", "DEC", "ASL", "LSR", "ROL", "ROR", "TRB", "TSB", "PHA", "PHP", "PHX",
      "PHY", "JSR", "BRK"] → t.mem.read n = s.mem.read n) ∧
    (mnemonic i ∈ ["PHA", "PHP", "PHX", "PHY", "JSR", "BRK"] → n / 256 ≠ 1 → t.mem.read n = s.mem.read n)

/-- For every row with an operand: after the pointer reads, a memory read makes exactly one read of the effective address;
a store exactly one write and no read, of A, X, Y or 0; a read-modify-write exactly one read and then one write, of the
rewritten operand, whatever the address is; immediate and accumulator rows make no access at all. Derived: R60, R118,
R120, R124, R125, R126, R170, R237. -/
def Obligations.AccessesAreExactlyTheListedOnes : Prop :=
  ∀ (v z : Byte) (a : Addr) (s : State),
    (∀ f ∈ readForms v z a ++ adcForms v z a ++ sbcForms v z a, ∃ t, exec f.1 s = .next t ∧ t.log = match f.2 with
      | .imm _ => s.log
      | .mem m => .read (m.ea s) (f.2.value s) :: (m.after s).log) ∧
    (∀ g ∈ storeRows z a s, ∃ t, exec g.1.1 s = .next t ∧ t.log = .write (g.1.2.ea s) g.2 :: (g.1.2.after s).log) ∧
    (∀ g ∈ rmwRows z a s, ∃ t, exec g.1.1 s = .next t ∧ t.log = match g.1.2 with
      | .acc => s.log
      | .mem m => .write (m.ea s) (g.2 (g.1.2.value s)) :: .read (m.ea s) (g.1.2.value s) :: (m.after s).log)

/-- Every row with an operand, where no address it touches is a device's, takes with its fetches the count of the class
table, a read plus one when its indexing crosses a page, ADC and SBC plus one more on CMOS when D = 1, the CMOS shifts in
absx 6 plus one when crossed instead of 7. Rests in part on what the spec marks as its own knowledge or decision (log
entry 17). Derived: R117, R250, R309, R310, R312, R315, log entry 17. -/
def Obligations.CyclesOfOperandInstructions : Prop :=
  ∀ (v z : Byte) (a : Addr) (s : State),
    (∀ f ∈ readForms v z a, NoDevice s (srcTouches f.2 s) → ∃ t, exec f.1 s = .next t ∧
      some (t.clock + (encode f.1).length) = (readBase f.2).map (fun n => s.clock + n + (crosses f.2 s).toNat)) ∧
    (∀ f ∈ adcForms v z a ++ sbcForms v z a, NoDevice s (srcTouches f.2 s) → ∃ t, exec f.1 s = .next t ∧
      some (t.clock + (encode f.1).length) = (readBase f.2).map (fun n => s.clock + n + (crosses f.2 s).toNat +
        (match s.variant with | .nmos => 0 | .cmos => s.p.d.toNat))) ∧
    (∀ f ∈ writeForms z a, NoDevice s (modeTouches f.2 s) → ∃ t, exec f.1 s = .next t ∧
      some (t.clock + (encode f.1).length) = (writeBase f.2).map (s.clock + ·)) ∧
    (∀ f ∈ rmwForms z a, NoDevice s (dstTouches f.2 s) → ∃ t, exec f.1 s = .next t ∧
      some (t.clock + (encode f.1).length) = (rmwBase f s).map (s.clock + ·))

/-- With no device in the map: each listed instruction takes its count, its fetches included, JMP (abs) 5 on NMOS and 6 on
CMOS. Rests in part on what the spec marks as its own knowledge or decision (log entry 17). Cycles count the fetches,
which exec follows. Derived: R309, R250, R315, log entry 17. -/
def Obligations.CyclesOfOtherInstructions : Prop :=
  ∀ (a : Addr) (s : State), AllPlain s →
    ∀ f ∈ otherCycles a s.variant, ∃ t, exec f.1 s = .next t ∧ t.clock + (encode f.1).length = s.clock + f.2

/-- For every state and word that the state's variant decodes to i: the step of the state with the word placed is exec of
i at the state after i's bytes were fetched (the interface of log entry 15). Derived: R284, R304, log entry 15. -/
def Obligations.PlacedWordIsTheNextInstruction : Prop :=
  ∀ (s : State) (nbits w : Nat) (i : Instr) (rest : List Byte), s.mem.wf →
    decode s.variant (bytesOfWord nbits w) = .ok (i, rest) →
    Machine.step (s.withFetchWord nbits w) = exec i (State.afterFetches (encode i).length (s.withFetchWord nbits w))

/-- A map is malformed exactly when a window passes 0xFFFF or two windows share an address; construction refuses exactly a
malformed map, an image range past 0xFFFF, or a reset vector byte that neither the image nor a device provides (log entry
16); a good configuration is accepted and gives a core with run = Uninitialized, clock 0, both latches 0, an empty error
record, the given variant, map and registers, the image in memory (a later range over an earlier one, 0 where there is
none, log entry 1), the invariant, and a first step that is stuck. Derived: R43, R54, R55, R56, R263, R305, log entry 1,
log entry 16. -/
def Obligations.ConstructionRefusesBadConfigurations : Prop :=
  ∀ c : SessionConfig,
    (regionsOk c.regions = false ↔ MapMalformed c.regions) ∧
    (¬ GoodConfig c → c.construct = none) ∧
    (GoodConfig c → ∃ s, c.construct = some s ∧ s.run = .uninitialized ∧ s.clock = 0 ∧ s.nmiPending = false ∧
      s.irqLine = false ∧ s.err = none ∧ s.variant = c.variant ∧ s.regions = c.regions ∧
      regsOf s = { a := c.regs.a, x := c.regs.x, y := c.regs.y, sp := c.regs.sp, pc := c.regs.pc, p := c.regs.p } ∧
      (∀ n, s.mem.read n = (imageByte c.image n).getD 0) ∧ Inv s ∧ Machine.step s = .fault .notReset)
end

