-- ==== Sys2Proof/Laws/Memory.lean ====
section
/-!
SUPPORT. The memory list: a read after a write, other addresses, the canonical form kept by every operation, and canonical
lists that read alike are equal.
-/

namespace Sys2Proof.Machine.Memory

open Sys2Proof

@[simp] theorem read_nil (a : Nat) : read [] a = unlisted := rfl

/-- A list whose addresses all lie above `a` does not list `a`. -/
theorem read_of_all_gt {m : Memory} {a : Nat} (h : ∀ c ∈ m, a < c.1) : read m a = unlisted := by
  induction m with
  | nil => rfl
  | cons c m ih =>
    have hc := h c (by simp)
    have : c.1 ≠ a := by omega
    simpa [read, this] using ih fun d hd => h d (by simp [hd])

/-- A write is read back. The list must have rising addresses: in any other, an address could stand twice. -/
theorem read_write_same {m : Memory} (h : m.Pairwise (fun c c' => c.1 < c'.1)) (a : Nat) (v : Byte) :
    read (write m a v) a = v := by
  induction m with
  | nil => by_cases hv : v = unlisted <;> simp [write, read, hv]
  | cons c m ih =>
    obtain ⟨k, w⟩ := c
    rw [List.pairwise_cons] at h
    by_cases h1 : a < k
    · have hk : k ≠ a := by omega
      by_cases hv : v = unlisted
      · have := read_of_all_gt (m := m) (a := a) fun c hc => by have := h.1 c hc; simp at this; omega
        simp [write, read, h1, hv, hk, this]
      · simp [write, read, h1, hv]
    · by_cases h2 : a = k
      · subst h2
        by_cases hv : v = unlisted
        · have := read_of_all_gt (m := m) (a := a) fun c hc => by have := h.1 c hc; simpa using this
          simp [write, hv, this]
        · simp [write, read, hv]
      · have hk : k ≠ a := fun e => h2 e.symm
        simp [write, read, h1, h2, hk, ih h.2]

/-- A write leaves every other address alone. -/
theorem read_write_other (m : Memory) (a : Nat) (v : Byte) (n : Nat) (h : n ≠ a) : read (write m a v) n = read m n := by
  have h' : a ≠ n := fun e => h e.symm
  induction m with
  | nil => by_cases hv : v = unlisted <;> simp [write, read, hv, h']
  | cons c m ih =>
    obtain ⟨k, w⟩ := c
    by_cases h1 : a < k
    · by_cases hv : v = unlisted <;> simp [write, read, h1, hv, h']
    · by_cases h2 : a = k
      · subst h2
        by_cases hv : v = unlisted <;> simp [write, read, hv, h']
      · simp [write, read, h1, h2, ih]

/-- Every entry of a written list is the written one or an old one. -/
theorem mem_write {m : Memory} {a : Nat} {v : Byte} {c : Host.Cell} (h : c ∈ write m a v) :
    (c = (a, v) ∧ v ≠ unlisted) ∨ c ∈ m := by
  induction m with
  | nil => by_cases hv : v = unlisted <;> simp_all [write]
  | cons d m ih =>
    obtain ⟨k, w⟩ := d
    unfold write at h
    by_cases hv : v = unlisted
    · split at h
      · simp_all
      · split at h
        · simp_all
        · rcases List.mem_cons.1 h with rfl | h
          · simp
          · rcases ih h with ⟨-, h0⟩ | h
            · exact absurd hv h0
            · simp [h]
    · split at h
      · simp_all
      · split at h
        · simp only [List.mem_cons] at h
          rcases h with rfl | h <;> simp_all
        · rcases List.mem_cons.1 h with rfl | h
          · simp
          · rcases ih h with h | h <;> simp_all

/-- Writing keeps the addresses rising. -/
theorem write_pairwise {m : Memory} (h : m.Pairwise (fun c c' => c.1 < c'.1)) (a : Nat) (v : Byte) :
    (write m a v).Pairwise (fun c c' => c.1 < c'.1) := by
  induction m with
  | nil => by_cases hv : v = unlisted <;> simp [write, hv]
  | cons d m ih =>
    obtain ⟨k, w⟩ := d
    have hp := List.pairwise_cons.1 h
    unfold write
    split
    · split
      · exact h
      · refine List.pairwise_cons.2 ⟨fun c hc => ?_, h⟩
        rcases List.mem_cons.1 hc with rfl | hc
        · simpa
        · have := hp.1 c hc; simp at this ⊢; omega
    · split
      · rename_i _ hak
        split
        · exact hp.2
        · exact List.pairwise_cons.2 ⟨fun c hc => by have := hp.1 c hc; simp at this ⊢; omega, hp.2⟩
      · refine List.pairwise_cons.2 ⟨fun c hc => ?_, ih hp.2⟩
        rcases mem_write hc with ⟨rfl, -⟩ | hc
        · simp; omega
        · exact hp.1 c hc

/-- Writing keeps the canonical form. -/
theorem write_wf {m : Memory} (h : m.wf) (a : Nat) (ha : a < 65536) (v : Byte) : (write m a v).wf := by
  refine ⟨write_pairwise h.1 a v, fun c hc => ?_⟩
  rcases mem_write hc with ⟨rfl, hv⟩ | hc
  · exact ⟨ha, hv⟩
  · exact h.2 c hc

theorem nil_wf : wf [] := ⟨List.Pairwise.nil, fun _ h => absurd h List.not_mem_nil⟩

/-- Writing a sequence of bytes inside the address space keeps the canonical form. -/
theorem writeAll_wf {vs : List Byte} : ∀ {m : Memory} {a : Nat}, m.wf → a + vs.length ≤ 65536 → (writeAll m a vs).wf := by
  induction vs with
  | nil => intro m a h _; exact h
  | cons v vs ih =>
    intro m a h ha
    simp only [List.length_cons] at ha
    exact ih (write_wf h a (by omega) v) (by omega)

/-- Two canonical lists that read alike are the same list: equal memories are equal data. -/
theorem eq_of_read_eq : ∀ {m m' : Memory}, m.wf → m'.wf → (∀ a, read m a = read m' a) → m = m'
  | [], [], _, _, _ => rfl
  | [], c :: m', _, h', e => by
    have := e c.1
    exact absurd (by simpa [read] using this.symm) (h'.2 c (by simp)).2
  | c :: m, [], h, _, e => by
    have := e c.1
    exact absurd (by simpa [read] using this) (h.2 c (by simp)).2
  | (k, v) :: m, (k', v') :: m', h, h', e => by
    have hp := List.pairwise_cons.1 h.1
    have hp' := List.pairwise_cons.1 h'.1
    have hk : k = k' := by
      rcases Nat.lt_trichotomy k k' with hlt | heq | hgt
      · have h1 := e k
        have hne : k' ≠ k := by omega
        have h2 : read m' k = unlisted :=
          read_of_all_gt fun c hc => by have := hp'.1 c hc; simp at this; omega
        simp [read, hne, h2] at h1
        exact absurd h1 (h.2 (k, v) (by simp)).2
      · exact heq
      · have h1 := e k'
        have hne : k ≠ k' := by omega
        have h2 : read m k' = unlisted :=
          read_of_all_gt fun c hc => by have := hp.1 c hc; simp at this; omega
        simp [read, hne, h2] at h1
        exact absurd h1.symm (h'.2 (k', v') (by simp)).2
    subst hk
    have hv : v = v' := by simpa [read] using e k
    subst hv
    have : m = m' := by
      refine eq_of_read_eq ⟨hp.2, fun c hc => h.2 c (by simp [hc])⟩ ⟨hp'.2, fun c hc => h'.2 c (by simp [hc])⟩ fun a => ?_
      by_cases ha : k = a
      · subst ha
        rw [read_of_all_gt fun c hc => by have := hp.1 c hc; simpa using this,
          read_of_all_gt fun c hc => by have := hp'.1 c hc; simpa using this]
      · simpa [read, ha] using e a
    rw [this]

end Sys2Proof.Machine.Memory
end

