-- ==== Sys2Proof/Laws/State.lean ====
section
/-!
SUPPORT. Each field after each named update of State, true by definition, so that no later proof unfolds an update.
-/

namespace Sys2Proof.Machine.State

open Sys2Proof

variable (s : State)

@[simp] theorem setA_variant (v : Byte) : (s.setA v).variant = s.variant := rfl
@[simp] theorem setA_a (v : Byte) : (s.setA v).a = v := rfl
@[simp] theorem setA_x (v : Byte) : (s.setA v).x = s.x := rfl
@[simp] theorem setA_y (v : Byte) : (s.setA v).y = s.y := rfl
@[simp] theorem setA_sp (v : Byte) : (s.setA v).sp = s.sp := rfl
@[simp] theorem setA_pc (v : Byte) : (s.setA v).pc = s.pc := rfl
@[simp] theorem setA_p (v : Byte) : (s.setA v).p = s.p := rfl
@[simp] theorem setA_run (v : Byte) : (s.setA v).run = s.run := rfl
@[simp] theorem setA_nmiPending (v : Byte) : (s.setA v).nmiPending = s.nmiPending := rfl
@[simp] theorem setA_irqLine (v : Byte) : (s.setA v).irqLine = s.irqLine := rfl
@[simp] theorem setA_clock (v : Byte) : (s.setA v).clock = s.clock := rfl
@[simp] theorem setA_err (v : Byte) : (s.setA v).err = s.err := rfl
@[simp] theorem setA_mem (v : Byte) : (s.setA v).mem = s.mem := rfl
@[simp] theorem setA_regions (v : Byte) : (s.setA v).regions = s.regions := rfl
@[simp] theorem setA_inputs (v : Byte) : (s.setA v).inputs = s.inputs := rfl
@[simp] theorem setA_log (v : Byte) : (s.setA v).log = s.log := rfl

@[simp] theorem setX_variant (v : Byte) : (s.setX v).variant = s.variant := rfl
@[simp] theorem setX_a (v : Byte) : (s.setX v).a = s.a := rfl
@[simp] theorem setX_x (v : Byte) : (s.setX v).x = v := rfl
@[simp] theorem setX_y (v : Byte) : (s.setX v).y = s.y := rfl
@[simp] theorem setX_sp (v : Byte) : (s.setX v).sp = s.sp := rfl
@[simp] theorem setX_pc (v : Byte) : (s.setX v).pc = s.pc := rfl
@[simp] theorem setX_p (v : Byte) : (s.setX v).p = s.p := rfl
@[simp] theorem setX_run (v : Byte) : (s.setX v).run = s.run := rfl
@[simp] theorem setX_nmiPending (v : Byte) : (s.setX v).nmiPending = s.nmiPending := rfl
@[simp] theorem setX_irqLine (v : Byte) : (s.setX v).irqLine = s.irqLine := rfl
@[simp] theorem setX_clock (v : Byte) : (s.setX v).clock = s.clock := rfl
@[simp] theorem setX_err (v : Byte) : (s.setX v).err = s.err := rfl
@[simp] theorem setX_mem (v : Byte) : (s.setX v).mem = s.mem := rfl
@[simp] theorem setX_regions (v : Byte) : (s.setX v).regions = s.regions := rfl
@[simp] theorem setX_inputs (v : Byte) : (s.setX v).inputs = s.inputs := rfl
@[simp] theorem setX_log (v : Byte) : (s.setX v).log = s.log := rfl

@[simp] theorem setY_variant (v : Byte) : (s.setY v).variant = s.variant := rfl
@[simp] theorem setY_a (v : Byte) : (s.setY v).a = s.a := rfl
@[simp] theorem setY_x (v : Byte) : (s.setY v).x = s.x := rfl
@[simp] theorem setY_y (v : Byte) : (s.setY v).y = v := rfl
@[simp] theorem setY_sp (v : Byte) : (s.setY v).sp = s.sp := rfl
@[simp] theorem setY_pc (v : Byte) : (s.setY v).pc = s.pc := rfl
@[simp] theorem setY_p (v : Byte) : (s.setY v).p = s.p := rfl
@[simp] theorem setY_run (v : Byte) : (s.setY v).run = s.run := rfl
@[simp] theorem setY_nmiPending (v : Byte) : (s.setY v).nmiPending = s.nmiPending := rfl
@[simp] theorem setY_irqLine (v : Byte) : (s.setY v).irqLine = s.irqLine := rfl
@[simp] theorem setY_clock (v : Byte) : (s.setY v).clock = s.clock := rfl
@[simp] theorem setY_err (v : Byte) : (s.setY v).err = s.err := rfl
@[simp] theorem setY_mem (v : Byte) : (s.setY v).mem = s.mem := rfl
@[simp] theorem setY_regions (v : Byte) : (s.setY v).regions = s.regions := rfl
@[simp] theorem setY_inputs (v : Byte) : (s.setY v).inputs = s.inputs := rfl
@[simp] theorem setY_log (v : Byte) : (s.setY v).log = s.log := rfl

@[simp] theorem setSp_variant (v : Byte) : (s.setSp v).variant = s.variant := rfl
@[simp] theorem setSp_a (v : Byte) : (s.setSp v).a = s.a := rfl
@[simp] theorem setSp_x (v : Byte) : (s.setSp v).x = s.x := rfl
@[simp] theorem setSp_y (v : Byte) : (s.setSp v).y = s.y := rfl
@[simp] theorem setSp_sp (v : Byte) : (s.setSp v).sp = v := rfl
@[simp] theorem setSp_pc (v : Byte) : (s.setSp v).pc = s.pc := rfl
@[simp] theorem setSp_p (v : Byte) : (s.setSp v).p = s.p := rfl
@[simp] theorem setSp_run (v : Byte) : (s.setSp v).run = s.run := rfl
@[simp] theorem setSp_nmiPending (v : Byte) : (s.setSp v).nmiPending = s.nmiPending := rfl
@[simp] theorem setSp_irqLine (v : Byte) : (s.setSp v).irqLine = s.irqLine := rfl
@[simp] theorem setSp_clock (v : Byte) : (s.setSp v).clock = s.clock := rfl
@[simp] theorem setSp_err (v : Byte) : (s.setSp v).err = s.err := rfl
@[simp] theorem setSp_mem (v : Byte) : (s.setSp v).mem = s.mem := rfl
@[simp] theorem setSp_regions (v : Byte) : (s.setSp v).regions = s.regions := rfl
@[simp] theorem setSp_inputs (v : Byte) : (s.setSp v).inputs = s.inputs := rfl
@[simp] theorem setSp_log (v : Byte) : (s.setSp v).log = s.log := rfl

@[simp] theorem setPc_variant (v : Addr) : (s.setPc v).variant = s.variant := rfl
@[simp] theorem setPc_a (v : Addr) : (s.setPc v).a = s.a := rfl
@[simp] theorem setPc_x (v : Addr) : (s.setPc v).x = s.x := rfl
@[simp] theorem setPc_y (v : Addr) : (s.setPc v).y = s.y := rfl
@[simp] theorem setPc_sp (v : Addr) : (s.setPc v).sp = s.sp := rfl
@[simp] theorem setPc_pc (v : Addr) : (s.setPc v).pc = v := rfl
@[simp] theorem setPc_p (v : Addr) : (s.setPc v).p = s.p := rfl
@[simp] theorem setPc_run (v : Addr) : (s.setPc v).run = s.run := rfl
@[simp] theorem setPc_nmiPending (v : Addr) : (s.setPc v).nmiPending = s.nmiPending := rfl
@[simp] theorem setPc_irqLine (v : Addr) : (s.setPc v).irqLine = s.irqLine := rfl
@[simp] theorem setPc_clock (v : Addr) : (s.setPc v).clock = s.clock := rfl
@[simp] theorem setPc_err (v : Addr) : (s.setPc v).err = s.err := rfl
@[simp] theorem setPc_mem (v : Addr) : (s.setPc v).mem = s.mem := rfl
@[simp] theorem setPc_regions (v : Addr) : (s.setPc v).regions = s.regions := rfl
@[simp] theorem setPc_inputs (v : Addr) : (s.setPc v).inputs = s.inputs := rfl
@[simp] theorem setPc_log (v : Addr) : (s.setPc v).log = s.log := rfl

@[simp] theorem setP_variant (v : Flags) : (s.setP v).variant = s.variant := rfl
@[simp] theorem setP_a (v : Flags) : (s.setP v).a = s.a := rfl
@[simp] theorem setP_x (v : Flags) : (s.setP v).x = s.x := rfl
@[simp] theorem setP_y (v : Flags) : (s.setP v).y = s.y := rfl
@[simp] theorem setP_sp (v : Flags) : (s.setP v).sp = s.sp := rfl
@[simp] theorem setP_pc (v : Flags) : (s.setP v).pc = s.pc := rfl
@[simp] theorem setP_p (v : Flags) : (s.setP v).p = v := rfl
@[simp] theorem setP_run (v : Flags) : (s.setP v).run = s.run := rfl
@[simp] theorem setP_nmiPending (v : Flags) : (s.setP v).nmiPending = s.nmiPending := rfl
@[simp] theorem setP_irqLine (v : Flags) : (s.setP v).irqLine = s.irqLine := rfl
@[simp] theorem setP_clock (v : Flags) : (s.setP v).clock = s.clock := rfl
@[simp] theorem setP_err (v : Flags) : (s.setP v).err = s.err := rfl
@[simp] theorem setP_mem (v : Flags) : (s.setP v).mem = s.mem := rfl
@[simp] theorem setP_regions (v : Flags) : (s.setP v).regions = s.regions := rfl
@[simp] theorem setP_inputs (v : Flags) : (s.setP v).inputs = s.inputs := rfl
@[simp] theorem setP_log (v : Flags) : (s.setP v).log = s.log := rfl

@[simp] theorem setNmi_variant (v : Bool) : (s.setNmi v).variant = s.variant := rfl
@[simp] theorem setNmi_a (v : Bool) : (s.setNmi v).a = s.a := rfl
@[simp] theorem setNmi_x (v : Bool) : (s.setNmi v).x = s.x := rfl
@[simp] theorem setNmi_y (v : Bool) : (s.setNmi v).y = s.y := rfl
@[simp] theorem setNmi_sp (v : Bool) : (s.setNmi v).sp = s.sp := rfl
@[simp] theorem setNmi_pc (v : Bool) : (s.setNmi v).pc = s.pc := rfl
@[simp] theorem setNmi_p (v : Bool) : (s.setNmi v).p = s.p := rfl
@[simp] theorem setNmi_run (v : Bool) : (s.setNmi v).run = s.run := rfl
@[simp] theorem setNmi_nmiPending (v : Bool) : (s.setNmi v).nmiPending = v := rfl
@[simp] theorem setNmi_irqLine (v : Bool) : (s.setNmi v).irqLine = s.irqLine := rfl
@[simp] theorem setNmi_clock (v : Bool) : (s.setNmi v).clock = s.clock := rfl
@[simp] theorem setNmi_err (v : Bool) : (s.setNmi v).err = s.err := rfl
@[simp] theorem setNmi_mem (v : Bool) : (s.setNmi v).mem = s.mem := rfl
@[simp] theorem setNmi_regions (v : Bool) : (s.setNmi v).regions = s.regions := rfl
@[simp] theorem setNmi_inputs (v : Bool) : (s.setNmi v).inputs = s.inputs := rfl
@[simp] theorem setNmi_log (v : Bool) : (s.setNmi v).log = s.log := rfl

@[simp] theorem setIrq_variant (v : Bool) : (s.setIrq v).variant = s.variant := rfl
@[simp] theorem setIrq_a (v : Bool) : (s.setIrq v).a = s.a := rfl
@[simp] theorem setIrq_x (v : Bool) : (s.setIrq v).x = s.x := rfl
@[simp] theorem setIrq_y (v : Bool) : (s.setIrq v).y = s.y := rfl
@[simp] theorem setIrq_sp (v : Bool) : (s.setIrq v).sp = s.sp := rfl
@[simp] theorem setIrq_pc (v : Bool) : (s.setIrq v).pc = s.pc := rfl
@[simp] theorem setIrq_p (v : Bool) : (s.setIrq v).p = s.p := rfl
@[simp] theorem setIrq_run (v : Bool) : (s.setIrq v).run = s.run := rfl
@[simp] theorem setIrq_nmiPending (v : Bool) : (s.setIrq v).nmiPending = s.nmiPending := rfl
@[simp] theorem setIrq_irqLine (v : Bool) : (s.setIrq v).irqLine = v := rfl
@[simp] theorem setIrq_clock (v : Bool) : (s.setIrq v).clock = s.clock := rfl
@[simp] theorem setIrq_err (v : Bool) : (s.setIrq v).err = s.err := rfl
@[simp] theorem setIrq_mem (v : Bool) : (s.setIrq v).mem = s.mem := rfl
@[simp] theorem setIrq_regions (v : Bool) : (s.setIrq v).regions = s.regions := rfl
@[simp] theorem setIrq_inputs (v : Bool) : (s.setIrq v).inputs = s.inputs := rfl
@[simp] theorem setIrq_log (v : Bool) : (s.setIrq v).log = s.log := rfl

@[simp] theorem setRun_variant (r : Run) (e : Option (Byte × Addr)) : (s.setRun r e).variant = s.variant := rfl
@[simp] theorem setRun_a (r : Run) (e : Option (Byte × Addr)) : (s.setRun r e).a = s.a := rfl
@[simp] theorem setRun_x (r : Run) (e : Option (Byte × Addr)) : (s.setRun r e).x = s.x := rfl
@[simp] theorem setRun_y (r : Run) (e : Option (Byte × Addr)) : (s.setRun r e).y = s.y := rfl
@[simp] theorem setRun_sp (r : Run) (e : Option (Byte × Addr)) : (s.setRun r e).sp = s.sp := rfl
@[simp] theorem setRun_pc (r : Run) (e : Option (Byte × Addr)) : (s.setRun r e).pc = s.pc := rfl
@[simp] theorem setRun_p (r : Run) (e : Option (Byte × Addr)) : (s.setRun r e).p = s.p := rfl
@[simp] theorem setRun_run (r : Run) (e : Option (Byte × Addr)) : (s.setRun r e).run = r := rfl
@[simp] theorem setRun_nmiPending (r : Run) (e : Option (Byte × Addr)) : (s.setRun r e).nmiPending = s.nmiPending := rfl
@[simp] theorem setRun_irqLine (r : Run) (e : Option (Byte × Addr)) : (s.setRun r e).irqLine = s.irqLine := rfl
@[simp] theorem setRun_clock (r : Run) (e : Option (Byte × Addr)) : (s.setRun r e).clock = s.clock := rfl
@[simp] theorem setRun_err (r : Run) (e : Option (Byte × Addr)) : (s.setRun r e).err = e := rfl
@[simp] theorem setRun_mem (r : Run) (e : Option (Byte × Addr)) : (s.setRun r e).mem = s.mem := rfl
@[simp] theorem setRun_regions (r : Run) (e : Option (Byte × Addr)) : (s.setRun r e).regions = s.regions := rfl
@[simp] theorem setRun_inputs (r : Run) (e : Option (Byte × Addr)) : (s.setRun r e).inputs = s.inputs := rfl
@[simp] theorem setRun_log (r : Run) (e : Option (Byte × Addr)) : (s.setRun r e).log = s.log := rfl

@[simp] theorem tick_variant (n : Nat) : (s.tick n).variant = s.variant := rfl
@[simp] theorem tick_a (n : Nat) : (s.tick n).a = s.a := rfl
@[simp] theorem tick_x (n : Nat) : (s.tick n).x = s.x := rfl
@[simp] theorem tick_y (n : Nat) : (s.tick n).y = s.y := rfl
@[simp] theorem tick_sp (n : Nat) : (s.tick n).sp = s.sp := rfl
@[simp] theorem tick_pc (n : Nat) : (s.tick n).pc = s.pc := rfl
@[simp] theorem tick_p (n : Nat) : (s.tick n).p = s.p := rfl
@[simp] theorem tick_run (n : Nat) : (s.tick n).run = s.run := rfl
@[simp] theorem tick_nmiPending (n : Nat) : (s.tick n).nmiPending = s.nmiPending := rfl
@[simp] theorem tick_irqLine (n : Nat) : (s.tick n).irqLine = s.irqLine := rfl
@[simp] theorem tick_clock (n : Nat) : (s.tick n).clock = s.clock + n := rfl
@[simp] theorem tick_err (n : Nat) : (s.tick n).err = s.err := rfl
@[simp] theorem tick_mem (n : Nat) : (s.tick n).mem = s.mem := rfl
@[simp] theorem tick_regions (n : Nat) : (s.tick n).regions = s.regions := rfl
@[simp] theorem tick_inputs (n : Nat) : (s.tick n).inputs = s.inputs := rfl
@[simp] theorem tick_log (n : Nat) : (s.tick n).log = s.log := rfl

@[simp] theorem finish_variant (total accesses : Nat) : (s.finish total accesses).variant = s.variant := rfl
@[simp] theorem finish_a (total accesses : Nat) : (s.finish total accesses).a = s.a := rfl
@[simp] theorem finish_x (total accesses : Nat) : (s.finish total accesses).x = s.x := rfl
@[simp] theorem finish_y (total accesses : Nat) : (s.finish total accesses).y = s.y := rfl
@[simp] theorem finish_sp (total accesses : Nat) : (s.finish total accesses).sp = s.sp := rfl
@[simp] theorem finish_pc (total accesses : Nat) : (s.finish total accesses).pc = s.pc := rfl
@[simp] theorem finish_p (total accesses : Nat) : (s.finish total accesses).p = s.p := rfl
@[simp] theorem finish_run (total accesses : Nat) : (s.finish total accesses).run = s.run := rfl
@[simp] theorem finish_nmiPending (total accesses : Nat) : (s.finish total accesses).nmiPending = s.nmiPending := rfl
@[simp] theorem finish_irqLine (total accesses : Nat) : (s.finish total accesses).irqLine = s.irqLine := rfl
@[simp] theorem finish_clock (total accesses : Nat) : (s.finish total accesses).clock = s.clock + (total - accesses) := rfl
@[simp] theorem finish_err (total accesses : Nat) : (s.finish total accesses).err = s.err := rfl
@[simp] theorem finish_mem (total accesses : Nat) : (s.finish total accesses).mem = s.mem := rfl
@[simp] theorem finish_regions (total accesses : Nat) : (s.finish total accesses).regions = s.regions := rfl
@[simp] theorem finish_inputs (total accesses : Nat) : (s.finish total accesses).inputs = s.inputs := rfl
@[simp] theorem finish_log (total accesses : Nat) : (s.finish total accesses).log = s.log := rfl

@[simp] theorem logged_variant (l : Access) : (s.logged l).variant = s.variant := rfl
@[simp] theorem logged_a (l : Access) : (s.logged l).a = s.a := rfl
@[simp] theorem logged_x (l : Access) : (s.logged l).x = s.x := rfl
@[simp] theorem logged_y (l : Access) : (s.logged l).y = s.y := rfl
@[simp] theorem logged_sp (l : Access) : (s.logged l).sp = s.sp := rfl
@[simp] theorem logged_pc (l : Access) : (s.logged l).pc = s.pc := rfl
@[simp] theorem logged_p (l : Access) : (s.logged l).p = s.p := rfl
@[simp] theorem logged_run (l : Access) : (s.logged l).run = s.run := rfl
@[simp] theorem logged_nmiPending (l : Access) : (s.logged l).nmiPending = s.nmiPending := rfl
@[simp] theorem logged_irqLine (l : Access) : (s.logged l).irqLine = s.irqLine := rfl
@[simp] theorem logged_clock (l : Access) : (s.logged l).clock = s.clock := rfl
@[simp] theorem logged_err (l : Access) : (s.logged l).err = s.err := rfl
@[simp] theorem logged_mem (l : Access) : (s.logged l).mem = s.mem := rfl
@[simp] theorem logged_regions (l : Access) : (s.logged l).regions = s.regions := rfl
@[simp] theorem logged_inputs (l : Access) : (s.logged l).inputs = s.inputs := rfl
@[simp] theorem logged_log (l : Access) : (s.logged l).log = l :: s.log := rfl

@[simp] theorem deviceActs_variant (r : DeviceReply) : (s.deviceActs r).variant = s.variant := rfl
@[simp] theorem deviceActs_a (r : DeviceReply) : (s.deviceActs r).a = s.a := rfl
@[simp] theorem deviceActs_x (r : DeviceReply) : (s.deviceActs r).x = s.x := rfl
@[simp] theorem deviceActs_y (r : DeviceReply) : (s.deviceActs r).y = s.y := rfl
@[simp] theorem deviceActs_sp (r : DeviceReply) : (s.deviceActs r).sp = s.sp := rfl
@[simp] theorem deviceActs_pc (r : DeviceReply) : (s.deviceActs r).pc = s.pc := rfl
@[simp] theorem deviceActs_p (r : DeviceReply) : (s.deviceActs r).p = s.p := rfl
@[simp] theorem deviceActs_run (r : DeviceReply) : (s.deviceActs r).run = s.run := rfl
@[simp] theorem deviceActs_nmiPending (r : DeviceReply) : (s.deviceActs r).nmiPending = (s.nmiPending || r.nmi) := rfl
@[simp] theorem deviceActs_irqLine (r : DeviceReply) : (s.deviceActs r).irqLine = r.irq.getD s.irqLine := rfl
@[simp] theorem deviceActs_clock (r : DeviceReply) : (s.deviceActs r).clock = s.clock + r.cost := rfl
@[simp] theorem deviceActs_err (r : DeviceReply) : (s.deviceActs r).err = s.err := rfl
@[simp] theorem deviceActs_mem (r : DeviceReply) : (s.deviceActs r).mem = r.stores.foldl (fun m w => m.write w.1.toNat w.2) s.mem := rfl
@[simp] theorem deviceActs_regions (r : DeviceReply) : (s.deviceActs r).regions = s.regions := rfl
@[simp] theorem deviceActs_inputs (r : DeviceReply) : (s.deviceActs r).inputs = s.inputs.tail := rfl
@[simp] theorem deviceActs_log (r : DeviceReply) : (s.deviceActs r).log = s.log := rfl

end Sys2Proof.Machine.State
end

