-- ==== Sys2Proof/Laws/Bus.lean ====
section
/-!
SUPPORT. What one bus access can do: the fields it keeps, and all of its effect on plain memory and on a device. The
operations built from accesses (pairs, fetches, pushes, pulls) keep what their accesses keep.
-/

namespace Sys2Proof.Machine.State

open Sys2Proof

variable (s : State)

/-! ## One read -/

/-- A read of plain memory: the byte stored there, recorded, one cycle, and nothing else. -/
theorem afterRead_plain (a : Addr) (h : PlainAt s a) :
    s.afterRead a = (s.logged (.read a (s.mem.read a.toNat))).tick 1 := by
  unfold afterRead busRead readByte
  split
  · exact absurd ‹_› (h _)
  all_goals rfl

theorem readByte_plain (a : Addr) (h : PlainAt s a) :
    s.readByte a = s.mem.read a.toNat := by
  unfold readByte
  split
  · exact absurd ‹_› (h _)
  all_goals rfl

/-- A read of a device: its reply's byte, its cost, latch calls and stores. -/
theorem afterRead_device (a : Addr) (id : Nat) (h : regionAt s.regions a = .device id) :
    s.afterRead a = ((s.deviceActs (s.deviceReply id a none)).logged (.read a (s.readByte a))).tick 1 := by
  simp only [afterRead, busRead, h]

/-- A read of plain memory keeps it. -/
theorem afterRead_mem (a : Addr) (h : PlainAt s a) : (s.afterRead a).mem = s.mem := by
  rw [afterRead_plain _ _ h]; rfl

/-- What a device stores keeps the canonical form. -/
theorem deviceActs_wf (r : DeviceReply) (hw : s.mem.wf) : (s.deviceActs r).mem.wf := by
  rw [deviceActs_mem]
  generalize s.mem = m at hw ⊢
  induction r.stores generalizing m with
  | nil => exact hw
  | cons x xs ih => exact ih _ (Memory.write_wf hw _ x.1.isLt _)

/-- Every access keeps the canonical form. -/
theorem busRead_wf (a : Addr) (hw : s.mem.wf) : (s.busRead a).mem.wf := by
  unfold busRead; split
  · exact deviceActs_wf _ _ hw
  all_goals exact hw

theorem afterRead_wf (a : Addr) (hw : s.mem.wf) : (s.afterRead a).mem.wf := busRead_wf s a hw

theorem afterRead_log (a : Addr) : (s.afterRead a).log = .read a (s.readByte a) :: s.log := by
  unfold afterRead busRead; split <;> rfl

/-- Each access takes a cycle, and a device's cost (70_reset_and_hazards.md R315, R314). -/
theorem afterRead_clock_le (a : Addr) : s.clock + 1 ≤ (s.afterRead a).clock := by
  unfold afterRead busRead; split <;> simp

@[simp] theorem busRead_variant (a : Addr) : (s.busRead a).variant = s.variant := by
  unfold busRead; split <;> rfl
@[simp] theorem busRead_a (a : Addr) : (s.busRead a).a = s.a := by
  unfold busRead; split <;> rfl
@[simp] theorem busRead_x (a : Addr) : (s.busRead a).x = s.x := by
  unfold busRead; split <;> rfl
@[simp] theorem busRead_y (a : Addr) : (s.busRead a).y = s.y := by
  unfold busRead; split <;> rfl
@[simp] theorem busRead_sp (a : Addr) : (s.busRead a).sp = s.sp := by
  unfold busRead; split <;> rfl
@[simp] theorem busRead_pc (a : Addr) : (s.busRead a).pc = s.pc := by
  unfold busRead; split <;> rfl
@[simp] theorem busRead_p (a : Addr) : (s.busRead a).p = s.p := by
  unfold busRead; split <;> rfl
@[simp] theorem busRead_run (a : Addr) : (s.busRead a).run = s.run := by
  unfold busRead; split <;> rfl
@[simp] theorem busRead_err (a : Addr) : (s.busRead a).err = s.err := by
  unfold busRead; split <;> rfl
@[simp] theorem busRead_regions (a : Addr) : (s.busRead a).regions = s.regions := by
  unfold busRead; split <;> rfl
@[simp] theorem afterRead_variant (a : Addr) : (s.afterRead a).variant = s.variant := by simp [afterRead]
@[simp] theorem afterRead_a (a : Addr) : (s.afterRead a).a = s.a := by simp [afterRead]
@[simp] theorem afterRead_x (a : Addr) : (s.afterRead a).x = s.x := by simp [afterRead]
@[simp] theorem afterRead_y (a : Addr) : (s.afterRead a).y = s.y := by simp [afterRead]
@[simp] theorem afterRead_sp (a : Addr) : (s.afterRead a).sp = s.sp := by simp [afterRead]
@[simp] theorem afterRead_pc (a : Addr) : (s.afterRead a).pc = s.pc := by simp [afterRead]
@[simp] theorem afterRead_p (a : Addr) : (s.afterRead a).p = s.p := by simp [afterRead]
@[simp] theorem afterRead_run (a : Addr) : (s.afterRead a).run = s.run := by simp [afterRead]
@[simp] theorem afterRead_err (a : Addr) : (s.afterRead a).err = s.err := by simp [afterRead]
@[simp] theorem afterRead_regions (a : Addr) : (s.afterRead a).regions = s.regions := by simp [afterRead]

/-! ## One write -/

/-- A write to RAM stores the byte. -/
theorem writeByte_ram (a : Addr) (v : Byte) (h : regionAt s.regions a = .ram) :
    s.writeByte a v = ({ s with mem := s.mem.write a.toNat v }.logged (.write a v)).tick 1 := by
  simp only [writeByte, busWrite, h]

/-- A write to ROM changes nothing but the record and the clock. -/
theorem writeByte_rom (a : Addr) (v : Byte) (h : regionAt s.regions a = .rom) :
    s.writeByte a v = (s.logged (.write a v)).tick 1 := by
  simp only [writeByte, busWrite, h]

/-- A write to a device: its cost, latch calls and stores. -/
theorem writeByte_device (a : Addr) (v : Byte) (id : Nat) (h : regionAt s.regions a = .device id) :
    s.writeByte a v = ((s.deviceActs (s.deviceReply id a (some v))).logged (.write a v)).tick 1 := by
  simp only [writeByte, busWrite, h]

/-- The memory after a write to plain memory: changed only by a write to RAM, and only at its address. -/
theorem writeByte_mem (a : Addr) (v : Byte) (h : PlainAt s a) :
    (s.writeByte a v).mem = if regionAt s.regions a = .ram then s.mem.write a.toNat v else s.mem := by
  unfold writeByte busWrite; split
  · exact absurd ‹_› (h _)
  all_goals simp_all

/-- A byte written to RAM is stored there, canonical memory provided. -/
theorem writeByte_mem_same (hw : s.mem.wf) (a : Addr) (v : Byte) (h : regionAt s.regions a = .ram) :
    (s.writeByte a v).mem.read a.toNat = v := by
  rw [writeByte_ram s a v h]
  exact Memory.read_write_same hw.1 _ _

theorem busWrite_wf (a : Addr) (v : Byte) (hw : s.mem.wf) : (s.busWrite a v).mem.wf := by
  unfold busWrite; split
  · exact deviceActs_wf _ _ hw
  · exact hw
  · exact Memory.write_wf hw _ a.isLt _

theorem writeByte_wf (a : Addr) (v : Byte) (hw : s.mem.wf) : (s.writeByte a v).mem.wf := busWrite_wf s a v hw

theorem writeByte_log (a : Addr) (v : Byte) : (s.writeByte a v).log = .write a v :: s.log := by
  unfold writeByte busWrite; split <;> rfl

theorem writeByte_clock_le (a : Addr) (v : Byte) : s.clock + 1 ≤ (s.writeByte a v).clock := by
  unfold writeByte busWrite; split <;> simp

/-- No access clears a pending NMI. -/
theorem afterRead_nmi_kept (a : Addr) (h : s.nmiPending = true) : (s.afterRead a).nmiPending = true := by
  unfold afterRead busRead; split <;> simp [h]

theorem writeByte_nmi_kept (a : Addr) (v : Byte) (h : s.nmiPending = true) : (s.writeByte a v).nmiPending = true := by
  unfold writeByte busWrite; split <;> simp [h]

/-- A write to plain memory keeps the latches and the device replies. -/
theorem writeByte_latches_plain (a : Addr) (v : Byte) (h : PlainAt s a) :
    (s.writeByte a v).nmiPending = s.nmiPending ∧ (s.writeByte a v).irqLine = s.irqLine ∧
      (s.writeByte a v).inputs = s.inputs := by
  unfold writeByte busWrite
  split
  · exact absurd ‹_› (h _)
  all_goals exact ⟨rfl, rfl, rfl⟩

theorem writeByte_clock_plain (a : Addr) (v : Byte) (h : PlainAt s a) :
    (s.writeByte a v).clock = s.clock + 1 := by
  unfold writeByte busWrite
  split
  · exact absurd ‹_› (h _)
  all_goals rfl

/-- A write to plain memory leaves every other address alone. -/
theorem writeByte_mem_other (a : Addr) (v : Byte) (hp : PlainAt s a) (n : Nat)
    (h : n ≠ a.toNat) : (s.writeByte a v).mem.read n = s.mem.read n := by
  rw [writeByte_mem _ _ _ hp]; split
  · exact Memory.read_write_other _ _ _ _ h
  · rfl

@[simp] theorem busWrite_variant (a : Addr) (v : Byte) : (s.busWrite a v).variant = s.variant := by
  unfold busWrite; split <;> rfl
@[simp] theorem busWrite_a (a : Addr) (v : Byte) : (s.busWrite a v).a = s.a := by
  unfold busWrite; split <;> rfl
@[simp] theorem busWrite_x (a : Addr) (v : Byte) : (s.busWrite a v).x = s.x := by
  unfold busWrite; split <;> rfl
@[simp] theorem busWrite_y (a : Addr) (v : Byte) : (s.busWrite a v).y = s.y := by
  unfold busWrite; split <;> rfl
@[simp] theorem busWrite_sp (a : Addr) (v : Byte) : (s.busWrite a v).sp = s.sp := by
  unfold busWrite; split <;> rfl
@[simp] theorem busWrite_pc (a : Addr) (v : Byte) : (s.busWrite a v).pc = s.pc := by
  unfold busWrite; split <;> rfl
@[simp] theorem busWrite_p (a : Addr) (v : Byte) : (s.busWrite a v).p = s.p := by
  unfold busWrite; split <;> rfl
@[simp] theorem busWrite_run (a : Addr) (v : Byte) : (s.busWrite a v).run = s.run := by
  unfold busWrite; split <;> rfl
@[simp] theorem busWrite_err (a : Addr) (v : Byte) : (s.busWrite a v).err = s.err := by
  unfold busWrite; split <;> rfl
@[simp] theorem busWrite_regions (a : Addr) (v : Byte) : (s.busWrite a v).regions = s.regions := by
  unfold busWrite; split <;> rfl
@[simp] theorem writeByte_variant (a : Addr) (v : Byte) : (s.writeByte a v).variant = s.variant := by simp [writeByte]
@[simp] theorem writeByte_a (a : Addr) (v : Byte) : (s.writeByte a v).a = s.a := by simp [writeByte]
@[simp] theorem writeByte_x (a : Addr) (v : Byte) : (s.writeByte a v).x = s.x := by simp [writeByte]
@[simp] theorem writeByte_y (a : Addr) (v : Byte) : (s.writeByte a v).y = s.y := by simp [writeByte]
@[simp] theorem writeByte_sp (a : Addr) (v : Byte) : (s.writeByte a v).sp = s.sp := by simp [writeByte]
@[simp] theorem writeByte_pc (a : Addr) (v : Byte) : (s.writeByte a v).pc = s.pc := by simp [writeByte]
@[simp] theorem writeByte_p (a : Addr) (v : Byte) : (s.writeByte a v).p = s.p := by simp [writeByte]
@[simp] theorem writeByte_run (a : Addr) (v : Byte) : (s.writeByte a v).run = s.run := by simp [writeByte]
@[simp] theorem writeByte_err (a : Addr) (v : Byte) : (s.writeByte a v).err = s.err := by simp [writeByte]
@[simp] theorem writeByte_regions (a : Addr) (v : Byte) : (s.writeByte a v).regions = s.regions := by simp [writeByte]

/-! ## Pairs, fetches, pushes and pulls -/

@[simp] theorem afterPair_variant (lo hi : Addr) : (s.afterPair lo hi).variant = s.variant := by simp [afterPair]
@[simp] theorem afterPair_a (lo hi : Addr) : (s.afterPair lo hi).a = s.a := by simp [afterPair]
@[simp] theorem afterPair_x (lo hi : Addr) : (s.afterPair lo hi).x = s.x := by simp [afterPair]
@[simp] theorem afterPair_y (lo hi : Addr) : (s.afterPair lo hi).y = s.y := by simp [afterPair]
@[simp] theorem afterPair_sp (lo hi : Addr) : (s.afterPair lo hi).sp = s.sp := by simp [afterPair]
@[simp] theorem afterPair_pc (lo hi : Addr) : (s.afterPair lo hi).pc = s.pc := by simp [afterPair]
@[simp] theorem afterPair_p (lo hi : Addr) : (s.afterPair lo hi).p = s.p := by simp [afterPair]
@[simp] theorem afterPair_run (lo hi : Addr) : (s.afterPair lo hi).run = s.run := by simp [afterPair]
@[simp] theorem afterPair_err (lo hi : Addr) : (s.afterPair lo hi).err = s.err := by simp [afterPair]
@[simp] theorem afterPair_regions (lo hi : Addr) : (s.afterPair lo hi).regions = s.regions := by simp [afterPair]

@[simp] theorem afterWord_variant (a : Addr) : (s.afterWord a).variant = s.variant := by simp [afterWord]
@[simp] theorem afterWord_a (a : Addr) : (s.afterWord a).a = s.a := by simp [afterWord]
@[simp] theorem afterWord_x (a : Addr) : (s.afterWord a).x = s.x := by simp [afterWord]
@[simp] theorem afterWord_y (a : Addr) : (s.afterWord a).y = s.y := by simp [afterWord]
@[simp] theorem afterWord_sp (a : Addr) : (s.afterWord a).sp = s.sp := by simp [afterWord]
@[simp] theorem afterWord_pc (a : Addr) : (s.afterWord a).pc = s.pc := by simp [afterWord]
@[simp] theorem afterWord_p (a : Addr) : (s.afterWord a).p = s.p := by simp [afterWord]
@[simp] theorem afterWord_run (a : Addr) : (s.afterWord a).run = s.run := by simp [afterWord]
@[simp] theorem afterWord_err (a : Addr) : (s.afterWord a).err = s.err := by simp [afterWord]
@[simp] theorem afterWord_regions (a : Addr) : (s.afterWord a).regions = s.regions := by simp [afterWord]

@[simp] theorem afterWordZp_variant (z : Byte) : (s.afterWordZp z).variant = s.variant := by simp [afterWordZp]
@[simp] theorem afterWordZp_a (z : Byte) : (s.afterWordZp z).a = s.a := by simp [afterWordZp]
@[simp] theorem afterWordZp_x (z : Byte) : (s.afterWordZp z).x = s.x := by simp [afterWordZp]
@[simp] theorem afterWordZp_y (z : Byte) : (s.afterWordZp z).y = s.y := by simp [afterWordZp]
@[simp] theorem afterWordZp_sp (z : Byte) : (s.afterWordZp z).sp = s.sp := by simp [afterWordZp]
@[simp] theorem afterWordZp_pc (z : Byte) : (s.afterWordZp z).pc = s.pc := by simp [afterWordZp]
@[simp] theorem afterWordZp_p (z : Byte) : (s.afterWordZp z).p = s.p := by simp [afterWordZp]
@[simp] theorem afterWordZp_run (z : Byte) : (s.afterWordZp z).run = s.run := by simp [afterWordZp]
@[simp] theorem afterWordZp_err (z : Byte) : (s.afterWordZp z).err = s.err := by simp [afterWordZp]
@[simp] theorem afterWordZp_regions (z : Byte) : (s.afterWordZp z).regions = s.regions := by simp [afterWordZp]

@[simp] theorem afterFetch_variant : s.afterFetch.variant = s.variant := by simp [afterFetch]
@[simp] theorem afterFetch_a : s.afterFetch.a = s.a := by simp [afterFetch]
@[simp] theorem afterFetch_x : s.afterFetch.x = s.x := by simp [afterFetch]
@[simp] theorem afterFetch_y : s.afterFetch.y = s.y := by simp [afterFetch]
@[simp] theorem afterFetch_sp : s.afterFetch.sp = s.sp := by simp [afterFetch]
@[simp] theorem afterFetch_pc : s.afterFetch.pc = s.pc + 1 := by simp [afterFetch]
@[simp] theorem afterFetch_p : s.afterFetch.p = s.p := by simp [afterFetch]
@[simp] theorem afterFetch_run : s.afterFetch.run = s.run := by simp [afterFetch]
@[simp] theorem afterFetch_err : s.afterFetch.err = s.err := by simp [afterFetch]
@[simp] theorem afterFetch_regions : s.afterFetch.regions = s.regions := by simp [afterFetch]

@[simp] theorem push_variant (v : Byte) : (s.push v).variant = s.variant := by simp [push]
@[simp] theorem push_a (v : Byte) : (s.push v).a = s.a := by simp [push]
@[simp] theorem push_x (v : Byte) : (s.push v).x = s.x := by simp [push]
@[simp] theorem push_y (v : Byte) : (s.push v).y = s.y := by simp [push]
@[simp] theorem push_sp (v : Byte) : (s.push v).sp = s.sp - 1 := by simp [push]
@[simp] theorem push_pc (v : Byte) : (s.push v).pc = s.pc := by simp [push]
@[simp] theorem push_p (v : Byte) : (s.push v).p = s.p := by simp [push]
@[simp] theorem push_run (v : Byte) : (s.push v).run = s.run := by simp [push]
@[simp] theorem push_err (v : Byte) : (s.push v).err = s.err := by simp [push]
@[simp] theorem push_regions (v : Byte) : (s.push v).regions = s.regions := by simp [push]

@[simp] theorem pushWord_variant (w : Addr) : (s.pushWord w).variant = s.variant := by simp [pushWord]
@[simp] theorem pushWord_a (w : Addr) : (s.pushWord w).a = s.a := by simp [pushWord]
@[simp] theorem pushWord_x (w : Addr) : (s.pushWord w).x = s.x := by simp [pushWord]
@[simp] theorem pushWord_y (w : Addr) : (s.pushWord w).y = s.y := by simp [pushWord]
@[simp] theorem pushWord_sp (w : Addr) : (s.pushWord w).sp = s.sp - 1 - 1 := by simp [pushWord]
@[simp] theorem pushWord_pc (w : Addr) : (s.pushWord w).pc = s.pc := by simp [pushWord]
@[simp] theorem pushWord_p (w : Addr) : (s.pushWord w).p = s.p := by simp [pushWord]
@[simp] theorem pushWord_run (w : Addr) : (s.pushWord w).run = s.run := by simp [pushWord]
@[simp] theorem pushWord_err (w : Addr) : (s.pushWord w).err = s.err := by simp [pushWord]
@[simp] theorem pushWord_regions (w : Addr) : (s.pushWord w).regions = s.regions := by simp [pushWord]

@[simp] theorem afterPull_variant : s.afterPull.variant = s.variant := by simp [afterPull]
@[simp] theorem afterPull_a : s.afterPull.a = s.a := by simp [afterPull]
@[simp] theorem afterPull_x : s.afterPull.x = s.x := by simp [afterPull]
@[simp] theorem afterPull_y : s.afterPull.y = s.y := by simp [afterPull]
@[simp] theorem afterPull_sp : s.afterPull.sp = s.sp + 1 := by simp [afterPull]
@[simp] theorem afterPull_pc : s.afterPull.pc = s.pc := by simp [afterPull]
@[simp] theorem afterPull_p : s.afterPull.p = s.p := by simp [afterPull]
@[simp] theorem afterPull_run : s.afterPull.run = s.run := by simp [afterPull]
@[simp] theorem afterPull_err : s.afterPull.err = s.err := by simp [afterPull]
@[simp] theorem afterPull_regions : s.afterPull.regions = s.regions := by simp [afterPull]

@[simp] theorem afterPullWord_variant : s.afterPullWord.variant = s.variant := by simp [afterPullWord]
@[simp] theorem afterPullWord_a : s.afterPullWord.a = s.a := by simp [afterPullWord]
@[simp] theorem afterPullWord_x : s.afterPullWord.x = s.x := by simp [afterPullWord]
@[simp] theorem afterPullWord_y : s.afterPullWord.y = s.y := by simp [afterPullWord]
@[simp] theorem afterPullWord_sp : s.afterPullWord.sp = s.sp + 1 + 1 := by simp [afterPullWord]
@[simp] theorem afterPullWord_pc : s.afterPullWord.pc = s.pc := by simp [afterPullWord]
@[simp] theorem afterPullWord_p : s.afterPullWord.p = s.p := by simp [afterPullWord]
@[simp] theorem afterPullWord_run : s.afterPullWord.run = s.run := by simp [afterPullWord]
@[simp] theorem afterPullWord_err : s.afterPullWord.err = s.err := by simp [afterPullWord]
@[simp] theorem afterPullWord_regions : s.afterPullWord.regions = s.regions := by simp [afterPullWord]

@[simp] theorem saveAndMask_variant (ret : Addr) (b : Bool) : (s.saveAndMask ret b).variant = s.variant := by simp [saveAndMask]
@[simp] theorem saveAndMask_a (ret : Addr) (b : Bool) : (s.saveAndMask ret b).a = s.a := by simp [saveAndMask]
@[simp] theorem saveAndMask_x (ret : Addr) (b : Bool) : (s.saveAndMask ret b).x = s.x := by simp [saveAndMask]
@[simp] theorem saveAndMask_y (ret : Addr) (b : Bool) : (s.saveAndMask ret b).y = s.y := by simp [saveAndMask]
@[simp] theorem saveAndMask_sp (ret : Addr) (b : Bool) : (s.saveAndMask ret b).sp = s.sp - 1 - 1 - 1 := by simp [saveAndMask]
@[simp] theorem saveAndMask_pc (ret : Addr) (b : Bool) : (s.saveAndMask ret b).pc = s.pc := by simp [saveAndMask]
@[simp] theorem saveAndMask_p (ret : Addr) (b : Bool) : (s.saveAndMask ret b).p = s.p.masked s.variant := by simp [saveAndMask]
@[simp] theorem saveAndMask_run (ret : Addr) (b : Bool) : (s.saveAndMask ret b).run = s.run := by simp [saveAndMask]
@[simp] theorem saveAndMask_err (ret : Addr) (b : Bool) : (s.saveAndMask ret b).err = s.err := by simp [saveAndMask]
@[simp] theorem saveAndMask_regions (ret : Addr) (b : Bool) : (s.saveAndMask ret b).regions = s.regions := by simp [saveAndMask]

@[simp] theorem jumpThrough_variant (a : Addr) : (s.jumpThrough a).variant = s.variant := by simp [jumpThrough]
@[simp] theorem jumpThrough_a (a : Addr) : (s.jumpThrough a).a = s.a := by simp [jumpThrough]
@[simp] theorem jumpThrough_x (a : Addr) : (s.jumpThrough a).x = s.x := by simp [jumpThrough]
@[simp] theorem jumpThrough_y (a : Addr) : (s.jumpThrough a).y = s.y := by simp [jumpThrough]
@[simp] theorem jumpThrough_sp (a : Addr) : (s.jumpThrough a).sp = s.sp := by simp [jumpThrough]
@[simp] theorem jumpThrough_pc (a : Addr) : (s.jumpThrough a).pc = s.readWord a := by simp [jumpThrough]
@[simp] theorem jumpThrough_p (a : Addr) : (s.jumpThrough a).p = s.p := by simp [jumpThrough]
@[simp] theorem jumpThrough_run (a : Addr) : (s.jumpThrough a).run = s.run := by simp [jumpThrough]
@[simp] theorem jumpThrough_err (a : Addr) : (s.jumpThrough a).err = s.err := by simp [jumpThrough]
@[simp] theorem jumpThrough_regions (a : Addr) : (s.jumpThrough a).regions = s.regions := by simp [jumpThrough]

/-! ## A map without devices -/

/-- Whether the map has a device depends on the map alone. -/
theorem allPlain_of_regions {s t : State} (hp : AllPlain s) (h : t.regions = s.regions) : AllPlain t := by
  intro a id; rw [h]; exact hp a id

theorem afterPair_mem (hp : AllPlain s) (lo hi : Addr) : (s.afterPair lo hi).mem = s.mem := by
  rw [afterPair, afterRead_mem _ _ (allPlain_of_regions hp (by simp) _), afterRead_mem _ _ (hp _)]
theorem afterWord_mem (hp : AllPlain s) (a : Addr) : (s.afterWord a).mem = s.mem := by
  rw [afterWord, afterPair_mem _ hp]
theorem afterWordZp_mem (hp : AllPlain s) (z : Byte) : (s.afterWordZp z).mem = s.mem := by
  rw [afterWordZp, afterPair_mem _ hp]
theorem afterFetch_mem (hp : AllPlain s) : s.afterFetch.mem = s.mem := by
  rw [afterFetch, setPc_mem, afterRead_mem _ _ (hp _)]
theorem afterPull_mem (hp : AllPlain s) : s.afterPull.mem = s.mem := by
  rw [afterPull, afterRead_mem _ _ (allPlain_of_regions hp (by simp) _), setSp_mem]
theorem afterPullWord_mem (hp : AllPlain s) : s.afterPullWord.mem = s.mem := by
  rw [afterPullWord, afterPull_mem _ (allPlain_of_regions hp (by simp)), afterPull_mem _ hp]
theorem jumpThrough_mem (hp : AllPlain s) (a : Addr) : (s.jumpThrough a).mem = s.mem := by
  rw [jumpThrough, setPc_mem, afterWord_mem _ hp]

end Sys2Proof.Machine.State
end

