-- ==== Sys2Proof/Laws/Operands.lean ====
section
/-!
SUPPORT. Resolving and loading an operand keeps every register and every flag, and all of memory where no device acts; a
read-modify-write keeps what its one write keeps.
-/

namespace Sys2Proof.Machine

open Sys2Proof

@[simp] theorem MemMode.after_variant (m : MemMode) (s : State) : (m.after s).variant = s.variant := by
  cases m <;> simp [MemMode.after]
@[simp] theorem MemMode.after_a (m : MemMode) (s : State) : (m.after s).a = s.a := by
  cases m <;> simp [MemMode.after]
@[simp] theorem MemMode.after_x (m : MemMode) (s : State) : (m.after s).x = s.x := by
  cases m <;> simp [MemMode.after]
@[simp] theorem MemMode.after_y (m : MemMode) (s : State) : (m.after s).y = s.y := by
  cases m <;> simp [MemMode.after]
@[simp] theorem MemMode.after_sp (m : MemMode) (s : State) : (m.after s).sp = s.sp := by
  cases m <;> simp [MemMode.after]
@[simp] theorem MemMode.after_pc (m : MemMode) (s : State) : (m.after s).pc = s.pc := by
  cases m <;> simp [MemMode.after]
@[simp] theorem MemMode.after_p (m : MemMode) (s : State) : (m.after s).p = s.p := by
  cases m <;> simp [MemMode.after]
@[simp] theorem MemMode.after_run (m : MemMode) (s : State) : (m.after s).run = s.run := by
  cases m <;> simp [MemMode.after]
@[simp] theorem MemMode.after_err (m : MemMode) (s : State) : (m.after s).err = s.err := by
  cases m <;> simp [MemMode.after]
@[simp] theorem MemMode.after_regions (m : MemMode) (s : State) : (m.after s).regions = s.regions := by
  cases m <;> simp [MemMode.after]

@[simp] theorem Src.after_variant (src : Src) (s : State) : (src.after s).variant = s.variant := by
  cases src <;> simp [Src.after]
@[simp] theorem Src.after_a (src : Src) (s : State) : (src.after s).a = s.a := by
  cases src <;> simp [Src.after]
@[simp] theorem Src.after_x (src : Src) (s : State) : (src.after s).x = s.x := by
  cases src <;> simp [Src.after]
@[simp] theorem Src.after_y (src : Src) (s : State) : (src.after s).y = s.y := by
  cases src <;> simp [Src.after]
@[simp] theorem Src.after_sp (src : Src) (s : State) : (src.after s).sp = s.sp := by
  cases src <;> simp [Src.after]
@[simp] theorem Src.after_pc (src : Src) (s : State) : (src.after s).pc = s.pc := by
  cases src <;> simp [Src.after]
@[simp] theorem Src.after_p (src : Src) (s : State) : (src.after s).p = s.p := by
  cases src <;> simp [Src.after]
@[simp] theorem Src.after_run (src : Src) (s : State) : (src.after s).run = s.run := by
  cases src <;> simp [Src.after]
@[simp] theorem Src.after_err (src : Src) (s : State) : (src.after s).err = s.err := by
  cases src <;> simp [Src.after]
@[simp] theorem Src.after_regions (src : Src) (s : State) : (src.after s).regions = s.regions := by
  cases src <;> simp [Src.after]

/-- With no device in the map, resolving and loading keep memory. -/
theorem MemMode.after_mem (m : MemMode) (s : State) (hp : AllPlain s) : (m.after s).mem = s.mem := by
  cases m <;> simp only [MemMode.after, State.afterWordZp_mem _ hp]
theorem Src.after_mem (src : Src) (s : State) (hp : AllPlain s) : (src.after s).mem = s.mem := by
  cases src with
  | imm v => rfl
  | mem m =>
    rw [Src.after, State.afterRead_mem _ _ (State.allPlain_of_regions hp (by simp) _), MemMode.after_mem _ _ hp]

/-- The record after resolving: the pointer's two bytes, low first. -/
theorem MemMode.after_log_indx (z : Byte) (s : State) : ((MemMode.indx z).after s).log =
    .read (State.zeroPage (z + s.x + 1)) ((s.afterRead (State.zeroPage (z + s.x))).readByte (State.zeroPage (z + s.x + 1))) ::
      .read (State.zeroPage (z + s.x)) (s.readByte (State.zeroPage (z + s.x))) :: s.log := by
  rw [MemMode.after, State.afterWordZp, State.afterPair, State.afterRead_log, State.afterRead_log]

theorem MemMode.after_log_izp (z : Byte) (s : State) : ((MemMode.izp z).after s).log =
    .read (State.zeroPage (z + 1)) ((s.afterRead (State.zeroPage z)).readByte (State.zeroPage (z + 1))) ::
      .read (State.zeroPage z) (s.readByte (State.zeroPage z)) :: s.log := by
  rw [MemMode.after, State.afterWordZp, State.afterPair, State.afterRead_log, State.afterRead_log]

theorem MemMode.after_indy (z : Byte) (s : State) : (MemMode.indy z).after s = (MemMode.izp z).after s := rfl

/-- The record after loading: one read of the effective address, after the pointer reads. -/
theorem Src.after_log_mem (m : MemMode) (s : State) :
    ((Src.mem m).after s).log = .read (m.ea s) ((Src.mem m).value s) :: (m.after s).log := by
  rw [Src.after, State.afterRead_log]; rfl

@[simp] theorem Dst.update_variant (d : Dst) (s : State) (u : Rmw) : (d.update s u).variant = s.variant := by
  cases d <;> simp [Dst.update]
@[simp] theorem Dst.update_x (d : Dst) (s : State) (u : Rmw) : (d.update s u).x = s.x := by
  cases d <;> simp [Dst.update]
@[simp] theorem Dst.update_y (d : Dst) (s : State) (u : Rmw) : (d.update s u).y = s.y := by
  cases d <;> simp [Dst.update]
@[simp] theorem Dst.update_sp (d : Dst) (s : State) (u : Rmw) : (d.update s u).sp = s.sp := by
  cases d <;> simp [Dst.update]
@[simp] theorem Dst.update_pc (d : Dst) (s : State) (u : Rmw) : (d.update s u).pc = s.pc := by
  cases d <;> simp [Dst.update]
@[simp] theorem Dst.update_run (d : Dst) (s : State) (u : Rmw) : (d.update s u).run = s.run := by
  cases d <;> simp [Dst.update]
@[simp] theorem Dst.update_err (d : Dst) (s : State) (u : Rmw) : (d.update s u).err = s.err := by
  cases d <;> simp [Dst.update]
@[simp] theorem Dst.update_regions (d : Dst) (s : State) (u : Rmw) : (d.update s u).regions = s.regions := by
  cases d <;> simp [Dst.update]
@[simp] theorem Dst.update_p (d : Dst) (s : State) (u : Rmw) : (d.update s u).p = u.p := by
  cases d <;> simp [Dst.update]
@[simp] theorem Dst.update_acc_a (s : State) (u : Rmw) : (Dst.acc.update s u).a = u.r := rfl
@[simp] theorem Dst.update_acc_mem (s : State) (u : Rmw) : (Dst.acc.update s u).mem = s.mem := rfl
@[simp] theorem Dst.update_mem_a (m : MemMode) (s : State) (u : Rmw) : ((Dst.mem m).update s u).a = s.a := by
  simp [Dst.update]

/-- The memory after a read-modify-write of memory: changed at the effective address alone. -/
theorem Dst.update_mem_other (m : MemMode) (s : State) (hp : AllPlain s) (u : Rmw) (n : Nat) (h : n ≠ (m.ea s).toNat) :
    ((Dst.mem m).update s u).mem.read n = s.mem.read n := by
  have h1 : AllPlain (m.after s) := State.allPlain_of_regions hp (by simp)
  have h2 : AllPlain (((m.after s).afterRead (m.ea s)).setP u.p) := State.allPlain_of_regions hp (by simp)
  rw [Dst.update, State.writeByte_mem_other _ _ _ (h2 _) _ h, State.setP_mem, State.afterRead_mem _ _ (h1 _), MemMode.after_mem _ _ hp]

@[simp] theorem afterInd_variant (w : Addr) (s : State) : (afterInd w s).variant = s.variant := by simp [afterInd]
@[simp] theorem afterInd_a (w : Addr) (s : State) : (afterInd w s).a = s.a := by simp [afterInd]
@[simp] theorem afterInd_x (w : Addr) (s : State) : (afterInd w s).x = s.x := by simp [afterInd]
@[simp] theorem afterInd_y (w : Addr) (s : State) : (afterInd w s).y = s.y := by simp [afterInd]
@[simp] theorem afterInd_sp (w : Addr) (s : State) : (afterInd w s).sp = s.sp := by simp [afterInd]
@[simp] theorem afterInd_pc (w : Addr) (s : State) : (afterInd w s).pc = s.pc := by simp [afterInd]
@[simp] theorem afterInd_p (w : Addr) (s : State) : (afterInd w s).p = s.p := by simp [afterInd]
@[simp] theorem afterInd_run (w : Addr) (s : State) : (afterInd w s).run = s.run := by simp [afterInd]
@[simp] theorem afterInd_err (w : Addr) (s : State) : (afterInd w s).err = s.err := by simp [afterInd]
@[simp] theorem afterInd_regions (w : Addr) (s : State) : (afterInd w s).regions = s.regions := by simp [afterInd]
@[simp] theorem afterIax_variant (w : Addr) (s : State) : (afterIax w s).variant = s.variant := by simp [afterIax]
@[simp] theorem afterIax_a (w : Addr) (s : State) : (afterIax w s).a = s.a := by simp [afterIax]
@[simp] theorem afterIax_x (w : Addr) (s : State) : (afterIax w s).x = s.x := by simp [afterIax]
@[simp] theorem afterIax_y (w : Addr) (s : State) : (afterIax w s).y = s.y := by simp [afterIax]
@[simp] theorem afterIax_sp (w : Addr) (s : State) : (afterIax w s).sp = s.sp := by simp [afterIax]
@[simp] theorem afterIax_pc (w : Addr) (s : State) : (afterIax w s).pc = s.pc := by simp [afterIax]
@[simp] theorem afterIax_p (w : Addr) (s : State) : (afterIax w s).p = s.p := by simp [afterIax]
@[simp] theorem afterIax_run (w : Addr) (s : State) : (afterIax w s).run = s.run := by simp [afterIax]
@[simp] theorem afterIax_err (w : Addr) (s : State) : (afterIax w s).err = s.err := by simp [afterIax]
@[simp] theorem afterIax_regions (w : Addr) (s : State) : (afterIax w s).regions = s.regions := by simp [afterIax]
theorem afterInd_mem (w : Addr) (s : State) (hp : AllPlain s) : (afterInd w s).mem = s.mem := by
  rw [afterInd, State.afterPair_mem _ hp]
theorem afterIax_mem (w : Addr) (s : State) (hp : AllPlain s) : (afterIax w s).mem = s.mem := by
  rw [afterIax, State.afterWord_mem _ hp]

end Sys2Proof.Machine
end

