-- ==== Sys2Proof/Laws/PerInstr.lean ====
section
/-!
SUPPORT. The family OpcodeRow: the first byte of an instruction's encoding has a row in the opcode table, and the row is CMOS
only exactly when the instruction is.
-/

namespace Sys2Proof.Laws.OpcodeRow

open Sys2Proof

/-- The encoding's first byte, looked up in the table, gives a row of the instruction's own variants. -/
def Statement (i : Instr) : Prop :=
  ((encode i).head?.bind fun op => opcodeTable.find? (·.opcode == op)).map (·.cmosOnly) = some i.cmosOnly

theorem ldaImm (v : Byte) : Statement (.ldaImm v) := rfl
theorem ldaZp (z : Byte) : Statement (.ldaZp z) := rfl
theorem ldaZpx (z : Byte) : Statement (.ldaZpx z) := rfl
theorem ldaAbs (a : Addr) : Statement (.ldaAbs a) := rfl
theorem ldaAbsx (a : Addr) : Statement (.ldaAbsx a) := rfl
theorem ldaAbsy (a : Addr) : Statement (.ldaAbsy a) := rfl
theorem ldaIndx (z : Byte) : Statement (.ldaIndx z) := rfl
theorem ldaIndy (z : Byte) : Statement (.ldaIndy z) := rfl
theorem ldaIzp (z : Byte) : Statement (.ldaIzp z) := rfl
theorem ldxImm (v : Byte) : Statement (.ldxImm v) := rfl
theorem ldxZp (z : Byte) : Statement (.ldxZp z) := rfl
theorem ldxZpy (z : Byte) : Statement (.ldxZpy z) := rfl
theorem ldxAbs (a : Addr) : Statement (.ldxAbs a) := rfl
theorem ldxAbsy (a : Addr) : Statement (.ldxAbsy a) := rfl
theorem ldyImm (v : Byte) : Statement (.ldyImm v) := rfl
theorem ldyZp (z : Byte) : Statement (.ldyZp z) := rfl
theorem ldyZpx (z : Byte) : Statement (.ldyZpx z) := rfl
theorem ldyAbs (a : Addr) : Statement (.ldyAbs a) := rfl
theorem ldyAbsx (a : Addr) : Statement (.ldyAbsx a) := rfl
theorem staZp (z : Byte) : Statement (.staZp z) := rfl
theorem staZpx (z : Byte) : Statement (.staZpx z) := rfl
theorem staAbs (a : Addr) : Statement (.staAbs a) := rfl
theorem staAbsx (a : Addr) : Statement (.staAbsx a) := rfl
theorem staAbsy (a : Addr) : Statement (.staAbsy a) := rfl
theorem staIndx (z : Byte) : Statement (.staIndx z) := rfl
theorem staIndy (z : Byte) : Statement (.staIndy z) := rfl
theorem staIzp (z : Byte) : Statement (.staIzp z) := rfl
theorem stxZp (z : Byte) : Statement (.stxZp z) := rfl
theorem stxZpy (z : Byte) : Statement (.stxZpy z) := rfl
theorem stxAbs (a : Addr) : Statement (.stxAbs a) := rfl
theorem styZp (z : Byte) : Statement (.styZp z) := rfl
theorem styZpx (z : Byte) : Statement (.styZpx z) := rfl
theorem styAbs (a : Addr) : Statement (.styAbs a) := rfl
theorem tax : Statement .tax := rfl
theorem tay : Statement .tay := rfl
theorem txa : Statement .txa := rfl
theorem tya : Statement .tya := rfl
theorem tsx : Statement .tsx := rfl
theorem txs : Statement .txs := rfl
theorem pha : Statement .pha := rfl
theorem php : Statement .php := rfl
theorem pla : Statement .pla := rfl
theorem plp : Statement .plp := rfl
theorem andImm (v : Byte) : Statement (.andImm v) := rfl
theorem andZp (z : Byte) : Statement (.andZp z) := rfl
theorem andZpx (z : Byte) : Statement (.andZpx z) := rfl
theorem andAbs (a : Addr) : Statement (.andAbs a) := rfl
theorem andAbsx (a : Addr) : Statement (.andAbsx a) := rfl
theorem andAbsy (a : Addr) : Statement (.andAbsy a) := rfl
theorem andIndx (z : Byte) : Statement (.andIndx z) := rfl
theorem andIndy (z : Byte) : Statement (.andIndy z) := rfl
theorem andIzp (z : Byte) : Statement (.andIzp z) := rfl
theorem oraImm (v : Byte) : Statement (.oraImm v) := rfl
theorem oraZp (z : Byte) : Statement (.oraZp z) := rfl
theorem oraZpx (z : Byte) : Statement (.oraZpx z) := rfl
theorem oraAbs (a : Addr) : Statement (.oraAbs a) := rfl
theorem oraAbsx (a : Addr) : Statement (.oraAbsx a) := rfl
theorem oraAbsy (a : Addr) : Statement (.oraAbsy a) := rfl
theorem oraIndx (z : Byte) : Statement (.oraIndx z) := rfl
theorem oraIndy (z : Byte) : Statement (.oraIndy z) := rfl
theorem oraIzp (z : Byte) : Statement (.oraIzp z) := rfl
theorem eorImm (v : Byte) : Statement (.eorImm v) := rfl
theorem eorZp (z : Byte) : Statement (.eorZp z) := rfl
theorem eorZpx (z : Byte) : Statement (.eorZpx z) := rfl
theorem eorAbs (a : Addr) : Statement (.eorAbs a) := rfl
theorem eorAbsx (a : Addr) : Statement (.eorAbsx a) := rfl
theorem eorAbsy (a : Addr) : Statement (.eorAbsy a) := rfl
theorem eorIndx (z : Byte) : Statement (.eorIndx z) := rfl
theorem eorIndy (z : Byte) : Statement (.eorIndy z) := rfl
theorem eorIzp (z : Byte) : Statement (.eorIzp z) := rfl
theorem bitImm (v : Byte) : Statement (.bitImm v) := rfl
theorem bitZp (z : Byte) : Statement (.bitZp z) := rfl
theorem bitZpx (z : Byte) : Statement (.bitZpx z) := rfl
theorem bitAbs (a : Addr) : Statement (.bitAbs a) := rfl
theorem bitAbsx (a : Addr) : Statement (.bitAbsx a) := rfl
theorem adcImm (v : Byte) : Statement (.adcImm v) := rfl
theorem adcZp (z : Byte) : Statement (.adcZp z) := rfl
theorem adcZpx (z : Byte) : Statement (.adcZpx z) := rfl
theorem adcAbs (a : Addr) : Statement (.adcAbs a) := rfl
theorem adcAbsx (a : Addr) : Statement (.adcAbsx a) := rfl
theorem adcAbsy (a : Addr) : Statement (.adcAbsy a) := rfl
theorem adcIndx (z : Byte) : Statement (.adcIndx z) := rfl
theorem adcIndy (z : Byte) : Statement (.adcIndy z) := rfl
theorem adcIzp (z : Byte) : Statement (.adcIzp z) := rfl
theorem sbcImm (v : Byte) : Statement (.sbcImm v) := rfl
theorem sbcZp (z : Byte) : Statement (.sbcZp z) := rfl
theorem sbcZpx (z : Byte) : Statement (.sbcZpx z) := rfl
theorem sbcAbs (a : Addr) : Statement (.sbcAbs a) := rfl
theorem sbcAbsx (a : Addr) : Statement (.sbcAbsx a) := rfl
theorem sbcAbsy (a : Addr) : Statement (.sbcAbsy a) := rfl
theorem sbcIndx (z : Byte) : Statement (.sbcIndx z) := rfl
theorem sbcIndy (z : Byte) : Statement (.sbcIndy z) := rfl
theorem sbcIzp (z : Byte) : Statement (.sbcIzp z) := rfl
theorem cmpImm (v : Byte) : Statement (.cmpImm v) := rfl
theorem cmpZp (z : Byte) : Statement (.cmpZp z) := rfl
theorem cmpZpx (z : Byte) : Statement (.cmpZpx z) := rfl
theorem cmpAbs (a : Addr) : Statement (.cmpAbs a) := rfl
theorem cmpAbsx (a : Addr) : Statement (.cmpAbsx a) := rfl
theorem cmpAbsy (a : Addr) : Statement (.cmpAbsy a) := rfl
theorem cmpIndx (z : Byte) : Statement (.cmpIndx z) := rfl
theorem cmpIndy (z : Byte) : Statement (.cmpIndy z) := rfl
theorem cmpIzp (z : Byte) : Statement (.cmpIzp z) := rfl
theorem cpxImm (v : Byte) : Statement (.cpxImm v) := rfl
theorem cpxZp (z : Byte) : Statement (.cpxZp z) := rfl
theorem cpxAbs (a : Addr) : Statement (.cpxAbs a) := rfl
theorem cpyImm (v : Byte) : Statement (.cpyImm v) := rfl
theorem cpyZp (z : Byte) : Statement (.cpyZp z) := rfl
theorem cpyAbs (a : Addr) : Statement (.cpyAbs a) := rfl
theorem incAcc : Statement .incAcc := rfl
theorem incZp (z : Byte) : Statement (.incZp z) := rfl
theorem incZpx (z : Byte) : Statement (.incZpx z) := rfl
theorem incAbs (a : Addr) : Statement (.incAbs a) := rfl
theorem incAbsx (a : Addr) : Statement (.incAbsx a) := rfl
theorem decAcc : Statement .decAcc := rfl
theorem decZp (z : Byte) : Statement (.decZp z) := rfl
theorem decZpx (z : Byte) : Statement (.decZpx z) := rfl
theorem decAbs (a : Addr) : Statement (.decAbs a) := rfl
theorem decAbsx (a : Addr) : Statement (.decAbsx a) := rfl
theorem inx : Statement .inx := rfl
theorem iny : Statement .iny := rfl
theorem dex : Statement .dex := rfl
theorem dey : Statement .dey := rfl
theorem aslAcc : Statement .aslAcc := rfl
theorem aslZp (z : Byte) : Statement (.aslZp z) := rfl
theorem aslZpx (z : Byte) : Statement (.aslZpx z) := rfl
theorem aslAbs (a : Addr) : Statement (.aslAbs a) := rfl
theorem aslAbsx (a : Addr) : Statement (.aslAbsx a) := rfl
theorem lsrAcc : Statement .lsrAcc := rfl
theorem lsrZp (z : Byte) : Statement (.lsrZp z) := rfl
theorem lsrZpx (z : Byte) : Statement (.lsrZpx z) := rfl
theorem lsrAbs (a : Addr) : Statement (.lsrAbs a) := rfl
theorem lsrAbsx (a : Addr) : Statement (.lsrAbsx a) := rfl
theorem rolAcc : Statement .rolAcc := rfl
theorem rolZp (z : Byte) : Statement (.rolZp z) := rfl
theorem rolZpx (z : Byte) : Statement (.rolZpx z) := rfl
theorem rolAbs (a : Addr) : Statement (.rolAbs a) := rfl
theorem rolAbsx (a : Addr) : Statement (.rolAbsx a) := rfl
theorem rorAcc : Statement .rorAcc := rfl
theorem rorZp (z : Byte) : Statement (.rorZp z) := rfl
theorem rorZpx (z : Byte) : Statement (.rorZpx z) := rfl
theorem rorAbs (a : Addr) : Statement (.rorAbs a) := rfl
theorem rorAbsx (a : Addr) : Statement (.rorAbsx a) := rfl
theorem jmpAbs (a : Addr) : Statement (.jmpAbs a) := rfl
theorem jmpInd (a : Addr) : Statement (.jmpInd a) := rfl
theorem jmpIax (a : Addr) : Statement (.jmpIax a) := rfl
theorem jsr (a : Addr) : Statement (.jsr a) := rfl
theorem rts : Statement .rts := rfl
theorem bcc (off : Byte) : Statement (.bcc off) := rfl
theorem bcs (off : Byte) : Statement (.bcs off) := rfl
theorem beq (off : Byte) : Statement (.beq off) := rfl
theorem bmi (off : Byte) : Statement (.bmi off) := rfl
theorem bne (off : Byte) : Statement (.bne off) := rfl
theorem bpl (off : Byte) : Statement (.bpl off) := rfl
theorem bvc (off : Byte) : Statement (.bvc off) := rfl
theorem bvs (off : Byte) : Statement (.bvs off) := rfl
theorem clc : Statement .clc := rfl
theorem sec : Statement .sec := rfl
theorem cli : Statement .cli := rfl
theorem sei : Statement .sei := rfl
theorem cld : Statement .cld := rfl
theorem sed : Statement .sed := rfl
theorem clv : Statement .clv := rfl
theorem nop : Statement .nop := rfl
theorem brk : Statement .brk := rfl
theorem rti : Statement .rti := rfl
theorem bra (off : Byte) : Statement (.bra off) := rfl
theorem phx : Statement .phx := rfl
theorem phy : Statement .phy := rfl
theorem plx : Statement .plx := rfl
theorem ply : Statement .ply := rfl
theorem stzZp (z : Byte) : Statement (.stzZp z) := rfl
theorem stzZpx (z : Byte) : Statement (.stzZpx z) := rfl
theorem stzAbs (a : Addr) : Statement (.stzAbs a) := rfl
theorem stzAbsx (a : Addr) : Statement (.stzAbsx a) := rfl
theorem trbZp (z : Byte) : Statement (.trbZp z) := rfl
theorem trbAbs (a : Addr) : Statement (.trbAbs a) := rfl
theorem tsbZp (z : Byte) : Statement (.tsbZp z) := rfl
theorem tsbAbs (a : Addr) : Statement (.tsbAbs a) := rfl

end Sys2Proof.Laws.OpcodeRow
end

