-- ==== Sys2Proof/Laws/Trail.lean ====
section
/-!
SUPPORT. An instruction's effect is a trail of bus accesses and register updates: `exec_trail` says so of all of them once. A
claim about every instruction then needs one case per kind of link, not one per instruction.
-/

namespace Sys2Proof.Machine

open Sys2Proof

/-- `t` and `u` differ in registers, flags and elapsed cycles alone. -/
structure RegsOnly (t u : State) : Prop where
  variant : u.variant = t.variant
  run : u.run = t.run
  err : u.err = t.err
  regions : u.regions = t.regions
  mem : u.mem = t.mem
  log : u.log = t.log
  inputs : u.inputs = t.inputs
  nmiPending : u.nmiPending = t.nmiPending
  irqLine : u.irqLine = t.irqLine
  clock : t.clock ≤ u.clock

/-- From `s` to `t` by bus accesses and register updates. -/
inductive Trail (s : State) : State → Prop where
  | refl : Trail s s
  | read (t : State) (a : Addr) (h : Trail s t) : Trail s (t.afterRead a)
  | write (t : State) (a : Addr) (v : Byte) (h : Trail s t) : Trail s (t.writeByte a v)
  | regs (t u : State) (h : Trail s t) (k : RegsOnly t u) : Trail s u

namespace Trail

variable {s t : State}

theorem setA (h : Trail s t) (v : Byte) : Trail s (t.setA v) := .regs t _ h ⟨rfl, rfl, rfl, rfl, rfl, rfl, rfl, rfl, rfl, Nat.le_refl _⟩
theorem setX (h : Trail s t) (v : Byte) : Trail s (t.setX v) := .regs t _ h ⟨rfl, rfl, rfl, rfl, rfl, rfl, rfl, rfl, rfl, Nat.le_refl _⟩
theorem setY (h : Trail s t) (v : Byte) : Trail s (t.setY v) := .regs t _ h ⟨rfl, rfl, rfl, rfl, rfl, rfl, rfl, rfl, rfl, Nat.le_refl _⟩
theorem setSp (h : Trail s t) (v : Byte) : Trail s (t.setSp v) := .regs t _ h ⟨rfl, rfl, rfl, rfl, rfl, rfl, rfl, rfl, rfl, Nat.le_refl _⟩
theorem setPc (h : Trail s t) (v : Addr) : Trail s (t.setPc v) := .regs t _ h ⟨rfl, rfl, rfl, rfl, rfl, rfl, rfl, rfl, rfl, Nat.le_refl _⟩
theorem setP (h : Trail s t) (v : Flags) : Trail s (t.setP v) := .regs t _ h ⟨rfl, rfl, rfl, rfl, rfl, rfl, rfl, rfl, rfl, Nat.le_refl _⟩
theorem tick (h : Trail s t) (n : Nat) : Trail s (t.tick n) :=
  .regs t _ h ⟨rfl, rfl, rfl, rfl, rfl, rfl, rfl, rfl, rfl, Nat.le_add_right _ _⟩
theorem finish (h : Trail s t) (total accesses : Nat) : Trail s (t.finish total accesses) := h.tick _

theorem pair (h : Trail s t) (lo hi : Addr) : Trail s (t.afterPair lo hi) := (h.read _ lo).read _ hi
theorem word (h : Trail s t) (a : Addr) : Trail s (t.afterWord a) := h.pair _ _
theorem wordZp (h : Trail s t) (z : Byte) : Trail s (t.afterWordZp z) := h.pair _ _
theorem push (h : Trail s t) (v : Byte) : Trail s (t.push v) := (h.write _ _ v).setSp _
theorem pushWord (h : Trail s t) (w : Addr) : Trail s (t.pushWord w) := (h.push _).push _
theorem pull (h : Trail s t) : Trail s t.afterPull := (h.setSp _).read _ _
theorem pullWord (h : Trail s t) : Trail s t.afterPullWord := h.pull.pull
theorem saveAndMask (h : Trail s t) (ret : Addr) (b : Bool) : Trail s (t.saveAndMask ret b) :=
  ((h.pushWord ret).push _).setP _
theorem jumpThrough (h : Trail s t) (a : Addr) : Trail s (t.jumpThrough a) := (h.word a).setPc _
theorem fetch (h : Trail s t) : Trail s t.afterFetch := (h.read _ _).setPc _

theorem fetches (n : Nat) : ∀ {t : State}, Trail s t → Trail s (t.afterFetches n) := by
  induction n with
  | zero => exact fun h => h
  | succ n ih => exact fun h => ih h.fetch

theorem memMode (h : Trail s t) (m : MemMode) : Trail s (m.after t) := by
  cases m
  case indx z => exact h.wordZp _
  case indy z => exact h.wordZp _
  case izp z => exact h.wordZp _
  all_goals exact h

theorem src (h : Trail s t) (r : Src) : Trail s (r.after t) := by
  cases r
  case imm v => exact h
  case mem m => exact (h.memMode m).read _ _

theorem update (h : Trail s t) (d : Dst) (u : Rmw) : Trail s (d.update t u) := by
  cases d
  case acc => exact (h.setP _).setA _
  case mem m => exact (((h.memMode m).read _ _).setP _).write _ _ _

theorem branch (h : Trail s t) (cond : Bool) (off : Byte) : Trail s (Machine.branch cond off t) := by
  cases cond
  case true => exact (h.setPc _).finish _ _
  case false => exact h.finish _ _

theorem loadA (h : Trail s t) (r : Src) (n : Nat) : Trail s (Machine.loadA r n t) := (((h.src r).setA _).setP _).finish _ _
theorem loadX (h : Trail s t) (r : Src) (n : Nat) : Trail s (Machine.loadX r n t) := (((h.src r).setX _).setP _).finish _ _
theorem loadY (h : Trail s t) (r : Src) (n : Nat) : Trail s (Machine.loadY r n t) := (((h.src r).setY _).setP _).finish _ _
theorem store (h : Trail s t) (m : MemMode) (v : Byte) (n : Nat) : Trail s (Machine.store m v n t) :=
  ((h.memMode m).write _ _ _).finish _ _
theorem logicA (h : Trail s t) (f : Byte → Byte → Byte) (r : Src) (n : Nat) : Trail s (Machine.logicA f r n t) :=
  (((h.src r).setA _).setP _).finish _ _
theorem arithA (h : Trail s t) (f : Variant → Flags → Byte → Byte → Alu) (r : Src) (n : Nat) :
    Trail s (Machine.arithA f r n t) := (((h.src r).setA _).setP _).finish _ _
theorem bitMem (h : Trail s t) (r : Src) (n : Nat) : Trail s (Machine.bitMem r n t) := ((h.src r).setP _).finish _ _
theorem compareReg (h : Trail s t) (v : Byte) (r : Src) (n : Nat) : Trail s (Machine.compareReg v r n t) :=
  ((h.src r).setP _).finish _ _
theorem rmw (h : Trail s t) (d : Dst) (f : Flags → Byte → Rmw) (n : Nat) : Trail s (Machine.rmw d f n t) :=
  (h.update d _).finish _ _

end Trail

/-- Everything an instruction can do: it answers a next state, reached by accesses and register updates. -/
theorem exec_trail (i : Instr) (s : State) : ∃ t, exec i s = .next t ∧ Trail s t := by
  have h : Trail s s := .refl
  cases i
  case ldaImm | ldaZp | ldaZpx | ldaAbs | ldaAbsx | ldaAbsy | ldaIndx | ldaIndy | ldaIzp =>
    exact ⟨_, rfl, h.loadA _ _⟩
  case ldxImm | ldxZp | ldxZpy | ldxAbs | ldxAbsy =>
    exact ⟨_, rfl, h.loadX _ _⟩
  case ldyImm | ldyZp | ldyZpx | ldyAbs | ldyAbsx =>
    exact ⟨_, rfl, h.loadY _ _⟩
  case staZp | staZpx | staAbs | staAbsx | staAbsy | staIndx | staIndy | staIzp | stxZp | stxZpy | stxAbs | styZp |
    styZpx | styAbs | stzZp | stzZpx | stzAbs | stzAbsx =>
    exact ⟨_, rfl, h.store _ _ _⟩
  case tax | tsx | inx | dex =>
    exact ⟨_, rfl, ((h.setX _).setP _).finish _ _⟩
  case tay | iny | dey =>
    exact ⟨_, rfl, ((h.setY _).setP _).finish _ _⟩
  case txa | tya =>
    exact ⟨_, rfl, ((h.setA _).setP _).finish _ _⟩
  case txs =>
    exact ⟨_, rfl, (h.setSp _).finish _ _⟩
  case pha | php | phx | phy =>
    exact ⟨_, rfl, (h.push _).finish _ _⟩
  case pla =>
    exact ⟨_, rfl, ((h.pull.setA _).setP _).finish _ _⟩
  case plp =>
    exact ⟨_, rfl, (h.pull.setP _).finish _ _⟩
  case andImm | andZp | andZpx | andAbs | andAbsx | andAbsy | andIndx | andIndy | andIzp | oraImm | oraZp | oraZpx |
    oraAbs | oraAbsx | oraAbsy | oraIndx | oraIndy | oraIzp | eorImm | eorZp | eorZpx | eorAbs | eorAbsx | eorAbsy |
    eorIndx | eorIndy | eorIzp =>
    exact ⟨_, rfl, h.logicA _ _ _⟩
  case bitImm | clc | sec | cli | sei | cld | sed | clv =>
    exact ⟨_, rfl, (h.setP _).finish _ _⟩
  case bitZp | bitZpx | bitAbs | bitAbsx =>
    exact ⟨_, rfl, h.bitMem _ _⟩
  case adcImm | adcZp | adcZpx | adcAbs | adcAbsx | adcAbsy | adcIndx | adcIndy | adcIzp | sbcImm | sbcZp | sbcZpx |
    sbcAbs | sbcAbsx | sbcAbsy | sbcIndx | sbcIndy | sbcIzp =>
    exact ⟨_, rfl, h.arithA _ _ _⟩
  case cmpImm | cmpZp | cmpZpx | cmpAbs | cmpAbsx | cmpAbsy | cmpIndx | cmpIndy | cmpIzp | cpxImm | cpxZp | cpxAbs |
    cpyImm | cpyZp | cpyAbs =>
    exact ⟨_, rfl, h.compareReg _ _ _⟩
  case incAcc | incZp | incZpx | incAbs | incAbsx | decAcc | decZp | decZpx | decAbs | decAbsx | aslAcc | aslZp |
    aslZpx | aslAbs | aslAbsx | lsrAcc | lsrZp | lsrZpx | lsrAbs | lsrAbsx | rolAcc | rolZp | rolZpx | rolAbs |
    rolAbsx | rorAcc | rorZp | rorZpx | rorAbs | rorAbsx | trbZp | trbAbs | tsbZp | tsbAbs =>
    exact ⟨_, rfl, h.rmw _ _ _⟩
  case jmpAbs =>
    exact ⟨_, rfl, (h.setPc _).finish _ _⟩
  case jmpInd | jmpIax =>
    exact ⟨_, rfl, ((h.pair _ _).setPc _).finish _ _⟩
  case jsr =>
    exact ⟨_, rfl, ((h.pushWord _).setPc _).finish _ _⟩
  case rts =>
    exact ⟨_, rfl, (h.pullWord.setPc _).finish _ _⟩
  case bcc | bcs | beq | bmi | bne | bpl | bvc | bvs | bra =>
    exact ⟨_, rfl, h.branch _ _⟩
  case nop =>
    exact ⟨_, rfl, h.finish _ _⟩
  case brk =>
    exact ⟨_, rfl, ((h.saveAndMask _ _).jumpThrough _).finish _ _⟩
  case rti =>
    exact ⟨_, rfl, ((h.pull.setP _).pullWord.setPc _).finish _ _⟩
  case plx =>
    exact ⟨_, rfl, ((h.pull.setX _).setP _).finish _ _⟩
  case ply =>
    exact ⟨_, rfl, ((h.pull.setY _).setP _).finish _ _⟩

/-- Every instruction answers a next state. -/
theorem exec_next (i : Instr) (s : State) : ∃ t, exec i s = .next t :=
  let ⟨t, h, _⟩ := exec_trail i s
  ⟨t, h⟩

/-- The state an instruction answers is reached by accesses and register updates. -/
theorem trail_of_exec {i : Instr} {s t : State} (h : exec i s = .next t) : Trail s t := by
  obtain ⟨u, hu, k⟩ := exec_trail i s
  rw [h] at hu
  cases hu
  exact k

/-! ## What a trail keeps -/

namespace Trail

variable {s t : State}

theorem variant (h : Trail s t) : t.variant = s.variant := by
  induction h with
  | refl => rfl
  | read t a h ih => simpa
  | write t a v h ih => simpa
  | regs t u h k ih => rw [k.variant, ih]

theorem run (h : Trail s t) : t.run = s.run := by
  induction h with
  | refl => rfl
  | read t a h ih => simpa
  | write t a v h ih => simpa
  | regs t u h k ih => rw [k.run, ih]

theorem err (h : Trail s t) : t.err = s.err := by
  induction h with
  | refl => rfl
  | read t a h ih => simpa
  | write t a v h ih => simpa
  | regs t u h k ih => rw [k.err, ih]

theorem regions (h : Trail s t) : t.regions = s.regions := by
  induction h with
  | refl => rfl
  | read t a h ih => simpa
  | write t a v h ih => simpa
  | regs t u h k ih => rw [k.regions, ih]

/-- A trail keeps the canonical form of memory. -/
theorem wf (h : Trail s t) (hs : s.mem.wf) : t.mem.wf := by
  induction h with
  | refl => exact hs
  | read t a h ih => exact State.afterRead_wf _ _ ih
  | write t a v h ih => exact State.writeByte_wf _ _ _ ih
  | regs t u h k ih => rw [k.mem]; exact ih

theorem clock_le (h : Trail s t) : s.clock ≤ t.clock := by
  induction h with
  | refl => exact Nat.le_refl _
  | read t a h ih => exact Nat.le_trans ih (Nat.le_of_succ_le (State.afterRead_clock_le _ _))
  | write t a v h ih => exact Nat.le_trans ih (Nat.le_of_succ_le (State.writeByte_clock_le _ _ _))
  | regs t u h k ih => exact Nat.le_trans ih k.clock

/-- The record of accesses only grows. -/
theorem log_suffix (h : Trail s t) : ∃ new, t.log = new ++ s.log := by
  induction h with
  | refl => exact ⟨[], rfl⟩
  | read t a h ih => obtain ⟨new, e⟩ := ih; exact ⟨_ :: new, by rw [State.afterRead_log, e]; rfl⟩
  | write t a v h ih => obtain ⟨new, e⟩ := ih; exact ⟨_ :: new, by rw [State.writeByte_log, e]; rfl⟩
  | regs t u h k ih => obtain ⟨new, e⟩ := ih; exact ⟨new, by rw [k.log, e]⟩

/-- A trail takes at least the cycle of each of its accesses. -/
theorem clock_ge (h : Trail s t) : ∃ new, t.log = new ++ s.log ∧ s.clock + new.length ≤ t.clock := by
  induction h with
  | refl => exact ⟨[], rfl, Nat.le_refl _⟩
  | read t a h ih =>
    obtain ⟨new, e, hc⟩ := ih
    have := t.afterRead_clock_le a
    exact ⟨_ :: new, by rw [State.afterRead_log, e]; rfl, by simp only [List.length_cons]; omega⟩
  | write t a v h ih =>
    obtain ⟨new, e, hc⟩ := ih
    have := t.writeByte_clock_le a v
    exact ⟨_ :: new, by rw [State.writeByte_log, e]; rfl, by simp only [List.length_cons]; omega⟩
  | regs t u h k ih =>
    obtain ⟨new, e, hc⟩ := ih
    exact ⟨new, by rw [k.log, e], Nat.le_trans hc k.clock⟩

/-- A trail whose accesses touch no device keeps the latches, the device replies, and every byte it does not write. -/
theorem quiet (h : Trail s t) : ∀ new, t.log = new ++ s.log → (∀ x ∈ new, PlainAt s x.addr) →
    t.nmiPending = s.nmiPending ∧ t.irqLine = s.irqLine ∧ t.inputs = s.inputs ∧
      ∀ n, (∀ b v, Access.write b v ∈ new → n ≠ b.toNat) → t.mem.read n = s.mem.read n := by
  induction h with
  | refl => exact fun new _ _ => ⟨rfl, rfl, rfl, fun n _ => rfl⟩
  | read t a h ih =>
    intro new e hp
    obtain ⟨old, e'⟩ := h.log_suffix
    obtain rfl : new = .read a (t.readByte a) :: old :=
      List.append_cancel_right (by rw [← e, State.afterRead_log, e']; rfl)
    have ha : PlainAt t a := fun id => by rw [h.regions]; exact hp _ (List.mem_cons_self ..) id
    obtain ⟨h1, h2, h3, h4⟩ := ih old e' fun x hx => hp x (List.mem_cons_of_mem _ hx)
    rw [State.afterRead_plain _ _ ha]
    exact ⟨h1, h2, h3, fun n hn => h4 n fun b v hb => hn b v (List.mem_cons_of_mem _ hb)⟩
  | write t a v h ih =>
    intro new e hp
    obtain ⟨old, e'⟩ := h.log_suffix
    obtain rfl : new = .write a v :: old := List.append_cancel_right (by rw [← e, State.writeByte_log, e']; rfl)
    have ha : PlainAt t a := fun id => by rw [h.regions]; exact hp _ (List.mem_cons_self ..) id
    obtain ⟨h1, h2, h3, h4⟩ := ih old e' fun x hx => hp x (List.mem_cons_of_mem _ hx)
    obtain ⟨k1, k2, k3⟩ := t.writeByte_latches_plain a v ha
    refine ⟨k1.trans h1, k2.trans h2, k3.trans h3, fun n hn => ?_⟩
    rw [State.writeByte_mem_other _ _ _ ha n (hn a v (List.mem_cons_self ..))]
    exact h4 n fun b w hb => hn b w (List.mem_cons_of_mem _ hb)
  | regs t u h k ih =>
    intro new e hp
    obtain ⟨h1, h2, h3, h4⟩ := ih new (k.log ▸ e) hp
    exact ⟨k.nmiPending.trans h1, k.irqLine.trans h2, k.inputs.trans h3, fun n hn => by rw [k.mem]; exact h4 n hn⟩

/-- A trail over a map without devices stays there. -/
theorem allPlain (h : Trail s t) (hp : AllPlain s) : AllPlain t := State.allPlain_of_regions hp h.regions

/-- A pending NMI stays pending along a trail. -/
theorem nmi_kept (h : Trail s t) (hs : s.nmiPending = true) : t.nmiPending = true := by
  induction h with
  | refl => exact hs
  | read t a h ih => exact State.afterRead_nmi_kept _ _ ih
  | write t a v h ih => exact State.writeByte_nmi_kept _ _ _ ih
  | regs t u h k ih => rw [k.nmiPending, ih]

/-- Without a device a trail keeps both latches and the device replies. -/
theorem latches (h : Trail s t) (hp : AllPlain s) :
    t.nmiPending = s.nmiPending ∧ t.irqLine = s.irqLine ∧ t.inputs = s.inputs := by
  obtain ⟨new, e⟩ := h.log_suffix
  obtain ⟨h1, h2, h3, -⟩ := h.quiet new e fun x _ => hp _
  exact ⟨h1, h2, h3⟩

end Trail

end Sys2Proof.Machine
end

