-- ==== Sys2Proof/Laws/Step.lean ====
section
/-!
SUPPORT. What a step can do, said once: it services an interrupt, runs the fetched instruction, or halts on an illegal opcode;
and that the reset state is `Reset()` of a constructed session.
-/

namespace Sys2Proof.Machine

open Sys2Proof

/-! ## Fetching -/

/-- What the fetch answers: a row's instruction after one to three fetches, or the illegal opcode after one. -/
theorem fetchInstr_cases (s : State) :
    (∃ i n, 1 ≤ n ∧ n ≤ 3 ∧ s.fetchInstr = .legal i (s.afterFetches n)) ∨
    (lookupOpcode s.variant (s.readByte s.pc) = none ∧ s.fetchInstr = .illegal (s.readByte s.pc) (s.afterFetches 1)) := by
  cases h : lookupOpcode s.variant (s.readByte s.pc) with
  | none => exact .inr ⟨rfl, by simp only [State.fetchInstr, h]; rfl⟩
  | some f =>
    cases f with
    | i1 i => exact .inl ⟨i, 1, by omega, by omega, by simp only [State.fetchInstr, h]; rfl⟩
    | i2 b => exact .inl ⟨_, 2, by omega, by omega, by simp only [State.fetchInstr, h]; rfl⟩
    | i3 b => exact .inl ⟨_, 3, by omega, by omega, by simp only [State.fetchInstr, h]; rfl⟩

/-- The fetch finds what the decoder reads from the bytes the three fetches return, and consumes no more than it needs. -/
theorem fetchInstr_of_decode (s : State) (i : Instr) (rest : List Byte)
    (h : decode s.variant (s.fetchedBytes 3) = .ok (i, rest)) :
    s.fetchInstr = .legal i (s.afterFetches (3 - rest.length)) := by
  cases hf : lookupOpcode s.variant (s.readByte s.pc) with
  | none => simp only [State.fetchedBytes, decode, hf] at h; cases h
  | some f =>
    cases f <;> simp only [State.fetchedBytes, decode, hf] at h <;> cases h <;>
      simp only [State.fetchInstr, hf] <;> rfl

/-! ## One step -/

/-- Everything a step that answers a next state can have done. -/
theorem step_cases {s t : State} (h : Machine.step s = .next t) :
    s.run = .running ∧
      ((s.nmiPending = true ∧ t = s.nmiEntry) ∨
       (s.nmiPending = false ∧ s.irqLine = true ∧ s.p.i = false ∧ t = s.irqEntry) ∨
       (s.nmiPending = false ∧ (s.irqLine = true → s.p.i = true) ∧
         ((∃ i n, 1 ≤ n ∧ n ≤ 3 ∧ s.fetchInstr = .legal i (s.afterFetches n) ∧ exec i (s.afterFetches n) = .next t) ∨
          (lookupOpcode s.variant (s.readByte s.pc) = none ∧
            t = (s.afterFetches 1).decodeError (s.readByte s.pc) s.pc)))) := by
  cases hr : s.run <;> simp only [Machine.step, hr] at h
  case running =>
    refine ⟨rfl, ?_⟩
    simp only [boundary] at h
    split at h
    · next hn => exact .inl ⟨hn, by cases h; rfl⟩
    · next hn =>
      have hn : s.nmiPending = false := by simpa using hn
      split at h
      · next hi =>
        have hi : s.irqLine = true ∧ s.p.i = false := by simpa [State.irqTaken] using hi
        exact .inr (.inl ⟨hn, hi.1, hi.2, by cases h; rfl⟩)
      · next hi =>
        have hi : s.irqLine = true → s.p.i = true := by simpa [State.irqTaken] using hi
        refine .inr (.inr ⟨hn, hi, ?_⟩)
        rcases fetchInstr_cases s with ⟨i, n, h1, h3, hf⟩ | ⟨hl, hf⟩
        · exact .inl ⟨i, n, h1, h3, hf, by simpa only [stepInstr, hf] using h⟩
        · refine .inr ⟨hl, ?_⟩
          simp only [stepInstr, hf] at h
          cases h; rfl
  all_goals cases h

/-- A running core always makes a step. -/
theorem step_running {s : State} (hr : s.run = .running) : ∃ t, Machine.step s = .next t := by
  simp only [Machine.step, hr, boundary]
  split
  · exact ⟨_, rfl⟩
  · split
    · exact ⟨_, rfl⟩
    · rcases fetchInstr_cases s with ⟨i, n, _, _, hf⟩ | ⟨_, hf⟩
      · obtain ⟨t, ht⟩ := exec_next i (s.afterFetches n)
        exact ⟨t, by simp only [stepInstr, hf, ht]⟩
      · exact ⟨(s.afterFetches 1).decodeError (s.readByte s.pc) s.pc, by simp only [stepInstr, hf]⟩

/-- With no interrupt to service, a step is its instruction part. -/
theorem step_eq_stepInstr {s : State} (hr : s.run = .running) (hn : s.nmiPending = false)
    (hi : s.irqLine = true → s.p.i = true) : Machine.step s = stepInstr s := by
  have : s.irqTaken = false := by
    cases hl : s.irqLine
    · simp [State.irqTaken, hl]
    · simp [State.irqTaken, hi hl]
  simp [Machine.step, hr, boundary, hn, this]

end Sys2Proof.Machine

/-! ## The reset state -/

namespace Sys2Proof.Laws

open Sys2Proof Sys2Proof.Machine

/-- The session whose `Reset()` is `State.reset`: the choices of log entries 1 to 4. -/
def resetSession : SessionConfig where
  variant := .cmos
  regions := []
  image := [(0xFFFC, [0, 0])]
  regs := { a := 0, x := 0, y := 0, sp := 0, pc := 0,
            p := { c := false, z := false, i := false, d := false, v := false, n := false } }
  inputs := []

/-- `State.reset` is what `Reset()` makes of a constructed session. -/
theorem reset_eq_reset_of_construction : resetSession.construct.map State.doReset = some State.reset := by
  rfl

end Sys2Proof.Laws
end

