-- ==== Sys2Proof/Laws/Templates.lean ====
section
/-!
SUPPORT. Each register, the flags and memory after each instruction template, so that a claim about an instruction's result
cites these and unfolds no template.
-/

namespace Sys2Proof.Machine

open Sys2Proof

@[simp] theorem loadA_a (r : Src) (n : Nat) (s : State) : (loadA r n s).a = r.value s := by simp [loadA]
@[simp] theorem loadA_x (r : Src) (n : Nat) (s : State) : (loadA r n s).x = s.x := by simp [loadA]
@[simp] theorem loadA_y (r : Src) (n : Nat) (s : State) : (loadA r n s).y = s.y := by simp [loadA]
@[simp] theorem loadA_sp (r : Src) (n : Nat) (s : State) : (loadA r n s).sp = s.sp := by simp [loadA]
@[simp] theorem loadA_pc (r : Src) (n : Nat) (s : State) : (loadA r n s).pc = s.pc := by simp [loadA]
@[simp] theorem loadA_p (r : Src) (n : Nat) (s : State) : (loadA r n s).p = s.p.setNZ (r.value s) := by simp [loadA]
@[simp] theorem loadA_log (r : Src) (n : Nat) (s : State) : (loadA r n s).log = (r.after s).log := by simp [loadA]

@[simp] theorem loadX_a (r : Src) (n : Nat) (s : State) : (loadX r n s).a = s.a := by simp [loadX]
@[simp] theorem loadX_x (r : Src) (n : Nat) (s : State) : (loadX r n s).x = r.value s := by simp [loadX]
@[simp] theorem loadX_y (r : Src) (n : Nat) (s : State) : (loadX r n s).y = s.y := by simp [loadX]
@[simp] theorem loadX_sp (r : Src) (n : Nat) (s : State) : (loadX r n s).sp = s.sp := by simp [loadX]
@[simp] theorem loadX_pc (r : Src) (n : Nat) (s : State) : (loadX r n s).pc = s.pc := by simp [loadX]
@[simp] theorem loadX_p (r : Src) (n : Nat) (s : State) : (loadX r n s).p = s.p.setNZ (r.value s) := by simp [loadX]
@[simp] theorem loadX_log (r : Src) (n : Nat) (s : State) : (loadX r n s).log = (r.after s).log := by simp [loadX]

@[simp] theorem loadY_a (r : Src) (n : Nat) (s : State) : (loadY r n s).a = s.a := by simp [loadY]
@[simp] theorem loadY_x (r : Src) (n : Nat) (s : State) : (loadY r n s).x = s.x := by simp [loadY]
@[simp] theorem loadY_y (r : Src) (n : Nat) (s : State) : (loadY r n s).y = r.value s := by simp [loadY]
@[simp] theorem loadY_sp (r : Src) (n : Nat) (s : State) : (loadY r n s).sp = s.sp := by simp [loadY]
@[simp] theorem loadY_pc (r : Src) (n : Nat) (s : State) : (loadY r n s).pc = s.pc := by simp [loadY]
@[simp] theorem loadY_p (r : Src) (n : Nat) (s : State) : (loadY r n s).p = s.p.setNZ (r.value s) := by simp [loadY]
@[simp] theorem loadY_log (r : Src) (n : Nat) (s : State) : (loadY r n s).log = (r.after s).log := by simp [loadY]

@[simp] theorem store_a (m : MemMode) (v : Byte) (n : Nat) (s : State) : (store m v n s).a = s.a := by simp [store]
@[simp] theorem store_x (m : MemMode) (v : Byte) (n : Nat) (s : State) : (store m v n s).x = s.x := by simp [store]
@[simp] theorem store_y (m : MemMode) (v : Byte) (n : Nat) (s : State) : (store m v n s).y = s.y := by simp [store]
@[simp] theorem store_sp (m : MemMode) (v : Byte) (n : Nat) (s : State) : (store m v n s).sp = s.sp := by simp [store]
@[simp] theorem store_pc (m : MemMode) (v : Byte) (n : Nat) (s : State) : (store m v n s).pc = s.pc := by simp [store]
@[simp] theorem store_p (m : MemMode) (v : Byte) (n : Nat) (s : State) : (store m v n s).p = s.p := by simp [store]

@[simp] theorem logicA_a (f : Byte → Byte → Byte) (r : Src) (n : Nat) (s : State) :
    (logicA f r n s).a = f s.a (r.value s) :=
  by simp [logicA]
@[simp] theorem logicA_x (f : Byte → Byte → Byte) (r : Src) (n : Nat) (s : State) : (logicA f r n s).x = s.x :=
  by simp [logicA]
@[simp] theorem logicA_y (f : Byte → Byte → Byte) (r : Src) (n : Nat) (s : State) : (logicA f r n s).y = s.y :=
  by simp [logicA]
@[simp] theorem logicA_sp (f : Byte → Byte → Byte) (r : Src) (n : Nat) (s : State) : (logicA f r n s).sp = s.sp :=
  by simp [logicA]
@[simp] theorem logicA_pc (f : Byte → Byte → Byte) (r : Src) (n : Nat) (s : State) : (logicA f r n s).pc = s.pc :=
  by simp [logicA]
@[simp] theorem logicA_p (f : Byte → Byte → Byte) (r : Src) (n : Nat) (s : State) :
    (logicA f r n s).p = s.p.setNZ (f s.a (r.value s)) :=
  by simp [logicA]
@[simp] theorem logicA_log (f : Byte → Byte → Byte) (r : Src) (n : Nat) (s : State) :
    (logicA f r n s).log = (r.after s).log :=
  by simp [logicA]

@[simp] theorem arithA_a (f : Variant → Flags → Byte → Byte → Alu) (r : Src) (n : Nat) (s : State) :
    (arithA f r n s).a = (f s.variant s.p s.a (r.value s)).r :=
  by simp [arithA]
@[simp] theorem arithA_x (f : Variant → Flags → Byte → Byte → Alu) (r : Src) (n : Nat) (s : State) :
    (arithA f r n s).x = s.x :=
  by simp [arithA]
@[simp] theorem arithA_y (f : Variant → Flags → Byte → Byte → Alu) (r : Src) (n : Nat) (s : State) :
    (arithA f r n s).y = s.y :=
  by simp [arithA]
@[simp] theorem arithA_sp (f : Variant → Flags → Byte → Byte → Alu) (r : Src) (n : Nat) (s : State) :
    (arithA f r n s).sp = s.sp :=
  by simp [arithA]
@[simp] theorem arithA_pc (f : Variant → Flags → Byte → Byte → Alu) (r : Src) (n : Nat) (s : State) :
    (arithA f r n s).pc = s.pc :=
  by simp [arithA]
@[simp] theorem arithA_p (f : Variant → Flags → Byte → Byte → Alu) (r : Src) (n : Nat) (s : State) :
    (arithA f r n s).p = s.p.ofAlu (f s.variant s.p s.a (r.value s)) :=
  by simp [arithA]
@[simp] theorem arithA_log (f : Variant → Flags → Byte → Byte → Alu) (r : Src) (n : Nat) (s : State) :
    (arithA f r n s).log = (r.after s).log :=
  by simp [arithA]

@[simp] theorem bitMem_a (r : Src) (n : Nat) (s : State) : (bitMem r n s).a = s.a := by simp [bitMem]
@[simp] theorem bitMem_x (r : Src) (n : Nat) (s : State) : (bitMem r n s).x = s.x := by simp [bitMem]
@[simp] theorem bitMem_y (r : Src) (n : Nat) (s : State) : (bitMem r n s).y = s.y := by simp [bitMem]
@[simp] theorem bitMem_sp (r : Src) (n : Nat) (s : State) : (bitMem r n s).sp = s.sp := by simp [bitMem]
@[simp] theorem bitMem_pc (r : Src) (n : Nat) (s : State) : (bitMem r n s).pc = s.pc := by simp [bitMem]
@[simp] theorem bitMem_p (r : Src) (n : Nat) (s : State) : (bitMem r n s).p = s.p.bitTest s.a (r.value s) :=
  by simp [bitMem]
@[simp] theorem bitMem_log (r : Src) (n : Nat) (s : State) : (bitMem r n s).log = (r.after s).log := by simp [bitMem]

@[simp] theorem bitImm_a (v : Byte) (n : Nat) (s : State) : (bitImm v n s).a = s.a := by simp [bitImm]
@[simp] theorem bitImm_x (v : Byte) (n : Nat) (s : State) : (bitImm v n s).x = s.x := by simp [bitImm]
@[simp] theorem bitImm_y (v : Byte) (n : Nat) (s : State) : (bitImm v n s).y = s.y := by simp [bitImm]
@[simp] theorem bitImm_sp (v : Byte) (n : Nat) (s : State) : (bitImm v n s).sp = s.sp := by simp [bitImm]
@[simp] theorem bitImm_pc (v : Byte) (n : Nat) (s : State) : (bitImm v n s).pc = s.pc := by simp [bitImm]
@[simp] theorem bitImm_p (v : Byte) (n : Nat) (s : State) : (bitImm v n s).p = s.p.testZ s.a v := by simp [bitImm]
@[simp] theorem bitImm_mem (v : Byte) (n : Nat) (s : State) : (bitImm v n s).mem = s.mem := by simp [bitImm]
@[simp] theorem bitImm_log (v : Byte) (n : Nat) (s : State) : (bitImm v n s).log = s.log := by simp [bitImm]

@[simp] theorem compareReg_a (v : Byte) (r : Src) (n : Nat) (s : State) : (compareReg v r n s).a = s.a :=
  by simp [compareReg]
@[simp] theorem compareReg_x (v : Byte) (r : Src) (n : Nat) (s : State) : (compareReg v r n s).x = s.x :=
  by simp [compareReg]
@[simp] theorem compareReg_y (v : Byte) (r : Src) (n : Nat) (s : State) : (compareReg v r n s).y = s.y :=
  by simp [compareReg]
@[simp] theorem compareReg_sp (v : Byte) (r : Src) (n : Nat) (s : State) : (compareReg v r n s).sp = s.sp :=
  by simp [compareReg]
@[simp] theorem compareReg_pc (v : Byte) (r : Src) (n : Nat) (s : State) : (compareReg v r n s).pc = s.pc :=
  by simp [compareReg]
@[simp] theorem compareReg_p (v : Byte) (r : Src) (n : Nat) (s : State) :
    (compareReg v r n s).p = s.p.compare v (r.value s) :=
  by simp [compareReg]
@[simp] theorem compareReg_log (v : Byte) (r : Src) (n : Nat) (s : State) : (compareReg v r n s).log = (r.after s).log :=
  by simp [compareReg]

@[simp] theorem rmw_x (d : Dst) (f : Flags → Byte → Rmw) (n : Nat) (s : State) : (rmw d f n s).x = s.x := by simp [rmw]
@[simp] theorem rmw_y (d : Dst) (f : Flags → Byte → Rmw) (n : Nat) (s : State) : (rmw d f n s).y = s.y := by simp [rmw]
@[simp] theorem rmw_sp (d : Dst) (f : Flags → Byte → Rmw) (n : Nat) (s : State) : (rmw d f n s).sp = s.sp := by simp [rmw]
@[simp] theorem rmw_pc (d : Dst) (f : Flags → Byte → Rmw) (n : Nat) (s : State) : (rmw d f n s).pc = s.pc := by simp [rmw]
@[simp] theorem rmw_p (d : Dst) (f : Flags → Byte → Rmw) (n : Nat) (s : State) :
    (rmw d f n s).p = (f s.p (d.value s)).p :=
  by simp [rmw]

@[simp] theorem branch_a (c : Bool) (off : Byte) (s : State) : (branch c off s).a = s.a := by cases c <;> rfl
@[simp] theorem branch_x (c : Bool) (off : Byte) (s : State) : (branch c off s).x = s.x := by cases c <;> rfl
@[simp] theorem branch_y (c : Bool) (off : Byte) (s : State) : (branch c off s).y = s.y := by cases c <;> rfl
@[simp] theorem branch_sp (c : Bool) (off : Byte) (s : State) : (branch c off s).sp = s.sp := by cases c <;> rfl
@[simp] theorem branch_pc (c : Bool) (off : Byte) (s : State) :
    (branch c off s).pc = if c then relTarget off s else s.pc :=
  by cases c <;> rfl
@[simp] theorem branch_p (c : Bool) (off : Byte) (s : State) : (branch c off s).p = s.p := by cases c <;> rfl
@[simp] theorem branch_mem (c : Bool) (off : Byte) (s : State) : (branch c off s).mem = s.mem := by cases c <;> rfl
@[simp] theorem branch_log (c : Bool) (off : Byte) (s : State) : (branch c off s).log = s.log := by cases c <;> rfl

/-- With no device in the map a read instruction keeps memory. -/
theorem loadA_mem (r : Src) (n : Nat) (s : State) (hp : AllPlain s) : (loadA r n s).mem = s.mem := by
  simp [loadA, Src.after_mem _ _ hp]
theorem loadX_mem (r : Src) (n : Nat) (s : State) (hp : AllPlain s) : (loadX r n s).mem = s.mem := by
  simp [loadX, Src.after_mem _ _ hp]
theorem loadY_mem (r : Src) (n : Nat) (s : State) (hp : AllPlain s) : (loadY r n s).mem = s.mem := by
  simp [loadY, Src.after_mem _ _ hp]
theorem logicA_mem (f : Byte → Byte → Byte) (r : Src) (n : Nat) (s : State) (hp : AllPlain s) :
    (logicA f r n s).mem = s.mem := by
  simp [logicA, Src.after_mem _ _ hp]
theorem arithA_mem (f : Variant → Flags → Byte → Byte → Alu) (r : Src) (n : Nat) (s : State) (hp : AllPlain s) :
    (arithA f r n s).mem = s.mem := by
  simp [arithA, Src.after_mem _ _ hp]
theorem bitMem_mem (r : Src) (n : Nat) (s : State) (hp : AllPlain s) : (bitMem r n s).mem = s.mem := by
  simp [bitMem, Src.after_mem _ _ hp]
theorem compareReg_mem (v : Byte) (r : Src) (n : Nat) (s : State) (hp : AllPlain s) :
    (compareReg v r n s).mem = s.mem := by
  simp [compareReg, Src.after_mem _ _ hp]

/-- Memory after a store: changed at the effective address alone. -/
theorem store_mem_other (m : MemMode) (v : Byte) (n : Nat) (s : State) (hp : AllPlain s) (k : Nat) (h : k ≠ (m.ea s).toNat) :
    (store m v n s).mem.read k = s.mem.read k := by
  rw [store, State.finish_mem, State.writeByte_mem_other _ _ _ (State.allPlain_of_regions hp (by simp) _) _ h,
    MemMode.after_mem _ _ hp]

/-- The byte a store leaves in RAM, canonical memory provided. -/
theorem store_mem_same (m : MemMode) (v : Byte) (n : Nat) (s : State) (hw : s.mem.wf) (h : regionAt s.regions (m.ea s) = .ram) :
    (store m v n s).mem.read (m.ea s).toNat = v :=
  State.writeByte_mem_same _ ((Trail.refl.memMode m).wf hw) _ _ (by simpa using h)

/-- Memory after a read-modify-write of memory: changed at the effective address alone. -/
theorem rmw_mem_other (m : MemMode) (f : Flags → Byte → Rmw) (n : Nat) (s : State) (hp : AllPlain s) (k : Nat)
    (h : k ≠ (m.ea s).toNat) : (rmw (.mem m) f n s).mem.read k = s.mem.read k := by
  rw [rmw, State.finish_mem, Dst.update_mem_other _ _ hp _ _ h]

/-- The byte a read-modify-write leaves in RAM, canonical memory provided. -/
theorem rmw_mem_same (m : MemMode) (f : Flags → Byte → Rmw) (n : Nat) (s : State) (hw : s.mem.wf)
    (h : regionAt s.regions (m.ea s) = .ram) :
    (rmw (.mem m) f n s).mem.read (m.ea s).toNat = (f s.p ((Dst.mem m).value s)).r :=
  State.writeByte_mem_same _ ((((Trail.refl.memMode m).read _ _).setP _).wf hw) _ _ (by simpa using h)

/-- The record after a store: one write, after the pointer reads. -/
@[simp] theorem store_log (m : MemMode) (v : Byte) (n : Nat) (s : State) :
    (store m v n s).log = .write (m.ea s) v :: (m.after s).log := by
  rw [store, State.finish_log, State.writeByte_log]

/-- The record after a read-modify-write of memory: one read, then one write. -/
@[simp] theorem rmw_mem_log (m : MemMode) (f : Flags → Byte → Rmw) (n : Nat) (s : State) :
    (rmw (.mem m) f n s).log = .write (m.ea s) (f s.p ((Dst.mem m).value s)).r ::
      .read (m.ea s) ((Dst.mem m).value s) :: (m.after s).log := by
  rw [rmw, State.finish_log, Dst.update, State.writeByte_log, State.setP_log, State.afterRead_log]
  rfl

@[simp] theorem rmw_acc_log (f : Flags → Byte → Rmw) (n : Nat) (s : State) : (rmw .acc f n s).log = s.log := rfl
@[simp] theorem rmw_acc_a (f : Flags → Byte → Rmw) (n : Nat) (s : State) : (rmw .acc f n s).a = (f s.p s.a).r := rfl
@[simp] theorem rmw_acc_mem (f : Flags → Byte → Rmw) (n : Nat) (s : State) : (rmw .acc f n s).mem = s.mem := rfl
@[simp] theorem rmw_mem_a (m : MemMode) (f : Flags → Byte → Rmw) (n : Nat) (s : State) : (rmw (.mem m) f n s).a = s.a := by
  simp [rmw]

end Sys2Proof.Machine
end

