-- ==== Sys2Proof/Laws/Values.lean ====
section
/-!
SUPPORT. Addresses as numbers: the bytes of an address, indexed addresses, pages, and the words read through plain memory.
-/

namespace Sys2Proof

theorem mkAddr_toNat (lo hi : Byte) : (mkAddr lo hi).toNat = lo.toNat + 256 * hi.toNat := by
  have h := lo.isLt
  rw [mkAddr, BitVec.toNat_append, ← Nat.shiftLeft_add_eq_or_of_lt h, Nat.shiftLeft_eq]
  omega

theorem hiByte_toNat (a : Addr) : (hiByte a).toNat = a.toNat / 256 := by
  simp [hiByte, Nat.shiftRight_eq_div_pow]
  omega

theorem loByte_toNat (a : Addr) : (loByte a).toNat = a.toNat % 256 := by simp [loByte]

@[simp] theorem loByte_mkAddr (lo hi : Byte) : loByte (mkAddr lo hi) = lo := by
  apply BitVec.eq_of_toNat_eq
  have := lo.isLt
  rw [loByte_toNat, mkAddr_toNat]
  omega

@[simp] theorem hiByte_mkAddr (lo hi : Byte) : hiByte (mkAddr lo hi) = hi := by
  apply BitVec.eq_of_toNat_eq
  have := lo.isLt
  rw [hiByte_toNat, mkAddr_toNat]
  omega

@[simp] theorem mkAddr_loByte_hiByte (a : Addr) : mkAddr (loByte a) (hiByte a) = a := by
  apply BitVec.eq_of_toNat_eq
  rw [mkAddr_toNat, loByte_toNat, hiByte_toNat]
  omega

namespace Machine

theorem zeroPage_toNat (z : Byte) : (State.zeroPage z).toNat = z.toNat := by simp [State.zeroPage, mkAddr_toNat]

theorem stackAddr_toNat (sp : Byte) : (State.stackAddr sp).toNat = 256 + sp.toNat := by
  simp [State.stackAddr, mkAddr_toNat]
  omega

/-- Different offsets are different stack locations. -/
theorem stackAddr_ne {a b : Byte} (h : a ≠ b) : (State.stackAddr a).toNat ≠ (State.stackAddr b).toNat := by
  rw [stackAddr_toNat, stackAddr_toNat]
  intro e
  exact h (BitVec.eq_of_toNat_eq (by omega))

theorem add_zext16_toNat (a : Addr) (x : Byte) : (a + zext16 x).toNat = (a.toNat + x.toNat) % 65536 := by
  simp [zext16, BitVec.toNat_add, BitVec.toNat_setWidth]

theorem pagesDiffer_iff (a b : Addr) : pagesDiffer a b = true ↔ a.toNat / 256 ≠ b.toNat / 256 := by
  rw [← hiByte_toNat, ← hiByte_toNat]
  simp [pagesDiffer, BitVec.toNat_inj]

namespace State

variable (s : State)

/-- Whether an address is a device's depends on the map alone. -/
theorem plainAt_of_regions {s t : State} {a : Addr} (h : PlainAt s a) (e : t.regions = s.regions) : PlainAt t a := by
  intro id; rw [e]; exact h id

/-- The value of two reads of plain memory. -/
theorem readPair_plain (lo hi : Addr) (hl : PlainAt s lo) (hh : PlainAt s hi) :
    s.readPair lo hi = mkAddr (s.mem.read lo.toNat) (s.mem.read hi.toNat) := by
  rw [readPair, readByte_plain _ _ hl, readByte_plain _ _ (plainAt_of_regions hh (by simp)), afterRead_mem _ _ hl]

theorem readWord_plain (a : Addr) (hl : PlainAt s a) (hh : PlainAt s (a + 1)) :
    s.readWord a = mkAddr (s.mem.read a.toNat) (s.mem.read (a + 1).toNat) := readPair_plain s _ _ hl hh

theorem readWordZp_plain (z : Byte) (hl : PlainAt s (zeroPage z)) (hh : PlainAt s (zeroPage (z + 1))) :
    s.readWordZp z = mkAddr (s.mem.read z.toNat) (s.mem.read (z + 1).toNat) := by
  rw [readWordZp, readPair_plain s _ _ hl hh, zeroPage_toNat, zeroPage_toNat]

theorem pulled_plain (h : PlainAt s (stackAddr (s.sp + 1))) : s.pulled = s.mem.read (stackAddr (s.sp + 1)).toNat :=
  readByte_plain _ _ h

theorem pulledWord_plain (hl : PlainAt s (stackAddr (s.sp + 1))) (hh : PlainAt s (stackAddr (s.sp + 1 + 1))) :
    s.pulledWord = mkAddr (s.mem.read (stackAddr (s.sp + 1)).toNat) (s.mem.read (stackAddr (s.sp + 1 + 1)).toNat) := by
  rw [pulledWord, pulled_plain s hl, pulled_plain _ (plainAt_of_regions (by simpa using hh) (by simp)), afterPull_sp, afterPull,
    afterRead_mem _ _ (plainAt_of_regions hl (by simp)), setSp_mem]

/-- A read of plain memory takes one cycle (70_reset_and_hazards.md R315). -/
theorem afterRead_clock_plain (a : Addr) (h : PlainAt s a) : (s.afterRead a).clock = s.clock + 1 := by
  rw [afterRead_plain _ _ h]
  rfl

theorem afterPair_clock_plain (lo hi : Addr) (hl : PlainAt s lo) (hh : PlainAt s hi) :
    (s.afterPair lo hi).clock = s.clock + 2 := by
  rw [afterPair, afterRead_clock_plain _ _ (plainAt_of_regions hh (by simp)), afterRead_clock_plain _ _ hl]

theorem afterFetch_clock_plain (h : PlainAt s s.pc) : s.afterFetch.clock = s.clock + 1 := by
  rw [afterFetch, setPc_clock, afterRead_clock_plain _ _ h]

theorem afterPull_clock_plain (h : PlainAt s (stackAddr (s.sp + 1))) : s.afterPull.clock = s.clock + 1 := by
  rw [afterPull, afterRead_clock_plain _ _ (plainAt_of_regions h (by simp)), setSp_clock]

theorem push_clock_plain (v : Byte) (h : PlainAt s (stackAddr s.sp)) : (s.push v).clock = s.clock + 1 := by
  rw [push, setSp_clock, writeByte_clock_plain _ _ _ h]

/-- What pushes, pulls, fetches and pairs record. -/
theorem push_log (v : Byte) : (s.push v).log = .write (stackAddr s.sp) v :: s.log := by
  rw [push, setSp_log, writeByte_log]

theorem pushWord_log (w : Addr) : (s.pushWord w).log =
    .write (stackAddr (s.sp - 1)) (loByte w) :: .write (stackAddr s.sp) (hiByte w) :: s.log := by
  rw [pushWord, push_log, push_log, push_sp]

theorem afterPull_log : s.afterPull.log = .read (stackAddr (s.sp + 1)) s.pulled :: s.log := by
  rw [afterPull, afterRead_log]; rfl

theorem afterFetch_log : s.afterFetch.log = .read s.pc (s.readByte s.pc) :: s.log := by
  rw [afterFetch, setPc_log, afterRead_log]

theorem afterPair_log (lo hi : Addr) :
    (s.afterPair lo hi).log = .read hi ((s.afterRead lo).readByte hi) :: .read lo (s.readByte lo) :: s.log := by
  rw [afterPair, afterRead_log, afterRead_log]

end State

end Machine

end Sys2Proof
end

