-- ==== Sys2Proof/Tests/Slice0.lean ====
section
/-!
SUPPORT. The model's own tests, with expected results from the spec: well-formedness and decoding, one step for each mnemonic
(the worked example of its rule), reset, interrupts and the fatal decode error; then, for every statement that has hypotheses,
a witness that meets them.
-/

namespace Sys2Proof.Tests

open Sys2Proof Sys2Proof.Machine Sys2Proof.Claims

/-! ## Helpers -/

/-- A running core at `pc` with these bytes there, these elsewhere, all flags 0, the clock at 0. -/
def coreAt (variant : Variant) (pc : Nat) (bytes : List Byte) (mem : List (Nat × Byte)) : State :=
  { State.reset with
    variant := variant
    pc := BitVec.ofNat 16 pc
    p := { c := false, z := false, i := false, d := false, v := false, n := false }
    clock := 0
    log := []
    mem := mem.foldl (fun m w => m.write w.1 w.2) (Memory.writeAll [] pc bytes) }

/-- The state after a step, if there is one. -/
def next : Out → Option State
  | .next t => some t
  | .fault _ => none
  | .refused _ => none

/-- One step of such a core, changed by `f` first. -/
def go (variant : Variant) (pc : Nat) (bytes : List Byte) (mem : List (Nat × Byte)) (f : State → State) : Option State :=
  next (Machine.step (f (coreAt variant pc bytes mem)))

/-! ## Well-formed instructions (30_encoding.md R87; 48_cmos_extensions.md R230) -/

theorem test_cmos_instruction_is_ill_formed_on_nmos : Instr.wellFormed .nmos .phx = false := by decide
theorem test_cmos_mode_is_ill_formed_on_nmos : Instr.wellFormed .nmos (.ldaIzp 0x10) = false := by decide
theorem test_cmos_instruction_is_well_formed_on_cmos : Instr.wellFormed .cmos .phx = true := by decide
theorem test_nmos_instruction_is_well_formed_on_nmos : Instr.wellFormed .nmos (.ldaIndx 0x10) = true := by decide

/-! ## Decoding: words from the encoding tables, by family -/

/-- R121: `absx` is `BD`, the low byte first. -/
theorem test_decode_lda_absx : decode .nmos [0b10111101, 0x34, 0x12, 0xEA] = .ok (.ldaAbsx 0x1234, [0xEA]) := by decide
/-- R125: `zpy` is `96`. -/
theorem test_decode_stx_zpy : decode .nmos [0b10010110, 0x80] = .ok (.stxZpy 0x80, []) := by decide
/-- R131: `BA`. -/
theorem test_decode_tsx : decode .nmos [0b10111010] = .ok (.tsx, []) := by decide
/-- R143: `28`. -/
theorem test_decode_plp : decode .nmos [0b00101000] = .ok (.plp, []) := by decide
/-- R158: `indy` is `71`. -/
theorem test_decode_adc_indy : decode .nmos [0b01110001, 0x30] = .ok (.adcIndy 0x30, []) := by decide
/-- R161: `abs` is `EC`. -/
theorem test_decode_cpx_abs : decode .nmos [0b11101100, 0xCD, 0xAB] = .ok (.cpxAbs 0xABCD, []) := by decide
/-- R180: `absx` is `7E`. -/
theorem test_decode_ror_absx : decode .nmos [0b01111110, 0xFF, 0x12] = .ok (.rorAbsx 0x12FF, []) := by decide
/-- R190: `ind` is `6C`. -/
theorem test_decode_jmp_ind : decode .nmos [0b01101100, 0xFF, 0x02] = .ok (.jmpInd 0x02FF, []) := by decide
/-- R199: `10`. -/
theorem test_decode_bpl : decode .nmos [0b00010000, 0x80] = .ok (.bpl 0x80, []) := by decide
/-- R215: `F8`. -/
theorem test_decode_sed : decode .nmos [0b11111000] = .ok (.sed, []) := by decide
/-- R221: `40`. -/
theorem test_decode_rti : decode .nmos [0b01000000] = .ok (.rti, []) := by decide
/-- R239: `abs` is `0C`, on `CMOS` only. -/
theorem test_decode_tsb_abs : decode .cmos [0b00001100, 0x00, 0x02] = .ok (.tsbAbs 0x0200, []) := by decide
theorem test_decode_tsb_abs_nmos : decode .nmos [0b00001100, 0x00, 0x02] = .error (.illegalOpcode 0x0C) := by decide
/-- A list that ends inside an instruction is refused. -/
theorem test_decode_truncated : decode .nmos [0xAD, 0x34] = .error .truncated := by decide
/-- R191: the table word of `JSR $0700`, bit 0 the least significant bit of the first byte. -/
theorem test_table_word : decodeTableWord 24 0x070020 = some (.jsr 0x0700) := by decide
/-- The same word, placed in the reset state, is the next instruction run: `S` goes down by two. -/
theorem test_fetch_word : (next (Machine.step (State.reset.withFetchWord 24 0x070020))).map (fun t => (t.pc, t.sp)) =
    some (0x0700, 0xFB) := by decide

/-! ## One step for each mnemonic: the worked examples of the rules -/

/-- The example of R121. -/
theorem test_lda_imm : (go .nmos 0x0600 [0xA9, 0x80] []
    id).map (fun t => (t.a, t.pc, t.p.n, t.p.z)) =
    some (0x80, 0x0602, true, false) := by decide
/-- The example of R122. -/
theorem test_ldx_imm : (go .nmos 0x0600 [0xA2, 0x00] []
    (fun s => { s with x := 0x55 })).map (fun t => (t.x, t.p.z, t.p.n)) =
    some (0x00, true, false) := by decide
/-- The example of R123. -/
theorem test_ldy_imm : (go .nmos 0x0600 [0xA0, 0x7F] []
    id).map (fun t => (t.y, t.p.z, t.p.n)) =
    some (0x7F, false, false) := by decide
/-- The example of R124. -/
theorem test_sta_abs : (go .nmos 0x0600 [0x8D, 0x00, 0x02] []
    (fun s => { s with a := 0x42 })).map (fun t => (t.mem.read 0x0200, t.p)) =
    some (0x42, { c := false, z := false, i := false, d := false, v := false, n := false }) := by decide
/-- The example of R125. -/
theorem test_stx_zp : (go .nmos 0x0600 [0x86, 0x10] []
    (fun s => { s with x := 0x07 })).map (fun t => t.mem.read 0x0010) =
    some 0x07 := by decide
/-- The example of R126. -/
theorem test_sty_zpx_wraps : (go .nmos 0x0600 [0x94, 0xFF] []
    (fun s => { s with y := 0xFF, x := 0x01 })).map (fun t => (t.mem.read 0x0000, t.mem.read 0x0100)) =
    some (0xFF, 0x00) := by decide
/-- The example of R127. -/
theorem test_tax : (go .nmos 0x0600 [0xAA] []
    (fun s => { s with a := 0x90 })).map (fun t => (t.x, t.p.n, t.p.z)) =
    some (0x90, true, false) := by decide
/-- The example of R128. -/
theorem test_tay : (go .nmos 0x0600 [0xA8] []
    (fun s => { s with y := 0x11 })).map (fun t => (t.y, t.p.z, t.p.n)) =
    some (0x00, true, false) := by decide
/-- The example of R129. -/
theorem test_txa : (go .nmos 0x0600 [0x8A] []
    (fun s => { s with x := 0x01 })).map (fun t => (t.a, t.p.z, t.p.n)) =
    some (0x01, false, false) := by decide
/-- The example of R130. -/
theorem test_tya : (go .nmos 0x0600 [0x98] []
    (fun s => { s with y := 0xFF })).map (fun t => (t.a, t.p.n, t.p.z)) =
    some (0xFF, true, false) := by decide
/-- The example of R131. -/
theorem test_tsx : (go .nmos 0x0600 [0xBA] []
    id).map (fun t => (t.x, t.p.n, t.p.z)) =
    some (0xFD, true, false) := by decide
/-- The example of R132. -/
theorem test_txs_no_flag : (go .nmos 0x0600 [0x9A] []
    (fun s => { s with x := 0xFF, p := { s.p with z := true } })).map (fun t => (t.sp, t.p.z, t.p.n)) =
    some (0xFF, true, false) := by decide
/-- The example of R140. -/
theorem test_pha : (go .nmos 0x0600 [0x48] []
    (fun s => { s with a := 0x42 })).map (fun t => (t.mem.read 0x01FD, t.sp)) =
    some (0x42, 0xFC) := by decide
/-- The example of R141. -/
theorem test_php : (go .nmos 0x0600 [0x08] []
    (fun s => { s with sp := 0xFF, p := { s.p with n := true, i := true, c := true } })).map (fun t => (t.mem.read 0x01FF, t.sp)) =
    some (0xB5, 0xFE) := by decide
/-- The example of R142. -/
theorem test_pla : (go .nmos 0x0600 [0x68] []
    (fun s => { s with sp := 0xFC, a := 0x11 })).map (fun t => (t.a, t.sp, t.p.z, t.p.n)) =
    some (0x00, 0xFD, true, false) := by decide
/-- The example of R143. -/
theorem test_plp : (go .nmos 0x0600 [0x28] [(0x01FF, 0xC3)]
    (fun s => { s with sp := 0xFE })).map (fun t => (t.p.image false, t.sp)) =
    some (0xE3, 0xFF) := by decide
/-- The example of R154. -/
theorem test_and_imm : (go .nmos 0x0600 [0x29, 0x3C] []
    (fun s => { s with a := 0xF0 })).map (fun t => (t.a, t.p.z, t.p.n)) =
    some (0x30, false, false) := by decide
/-- The example of R155. -/
theorem test_ora_imm : (go .nmos 0x0600 [0x09, 0x80] []
    (fun s => { s with a := 0x0F })).map (fun t => (t.a, t.p.n, t.p.z)) =
    some (0x8F, true, false) := by decide
/-- The example of R156. -/
theorem test_eor_imm : (go .nmos 0x0600 [0x49, 0xFF] []
    (fun s => { s with a := 0xAA })).map (fun t => (t.a, t.p.z, t.p.n)) =
    some (0x55, false, false) := by decide
/-- The example of R157. -/
theorem test_bit_zp : (go .nmos 0x0600 [0x24, 0x10] [(0x0010, 0xC0)]
    (fun s => { s with a := 0x01 })).map (fun t => (t.a, t.p.z, t.p.n, t.p.v)) =
    some (0x01, true, true, true) := by decide
/-- The example of R158. -/
theorem test_adc_imm : (go .nmos 0x0600 [0x69, 0x20] []
    (fun s => { s with a := 0x10, p := { s.p with c := true } })).map (fun t => (t.a, t.p.c, t.p.v, t.p.z, t.p.n)) =
    some (0x31, false, false, false, false) := by decide
/-- The example of R159. -/
theorem test_sbc_imm : (go .nmos 0x0600 [0xE9, 0x10] []
    (fun s => { s with a := 0x50, p := { s.p with c := true } })).map (fun t => (t.a, t.p.c, t.p.v, t.p.z, t.p.n)) =
    some (0x40, true, false, false, false) := by decide
/-- The example of R246 (on NMOS). -/
theorem test_adc_decimal_nmos : (go .nmos 0x0600 [0x69, 0x01] []
    (fun s => { s with a := 0x99, p := { s.p with d := true } })).map (fun t => (t.a, t.p.c, t.p.z, t.p.n, t.p.v)) =
    some (0x00, true, false, true, false) := by decide
/-- The example of R246. -/
theorem test_adc_decimal_cmos : (go .cmos 0x0600 [0x69, 0x01] []
    (fun s => { s with a := 0x99, p := { s.p with d := true } })).map (fun t => (t.a, t.p.c, t.p.z, t.p.n, t.p.v)) =
    some (0x00, true, true, false, false) := by decide
/-- The example of R247. -/
theorem test_sbc_decimal_cmos : (go .cmos 0x0600 [0xE9, 0x13] []
    (fun s => { s with a := 0x40, p := { s.p with c := true, d := true } })).map (fun t => (t.a, t.p.c, t.p.z, t.p.n, t.clock)) =
    some (0x27, true, false, false, 3) := by decide
/-- The example of R160. -/
theorem test_cmp_imm : (go .nmos 0x0600 [0xC9, 0x41] []
    (fun s => { s with a := 0x40 })).map (fun t => (t.p.c, t.p.z, t.p.n, t.a)) =
    some (false, false, true, 0x40) := by decide
/-- The example of R161. -/
theorem test_cpx_imm : (go .nmos 0x0600 [0xE0, 0x10] []
    (fun s => { s with x := 0x10 })).map (fun t => (t.p.c, t.p.z, t.p.n)) =
    some (true, true, false) := by decide
/-- The example of R162. -/
theorem test_cpy_imm : (go .nmos 0x0600 [0xC0, 0x00] []
    (fun s => { s with y := 0xFF })).map (fun t => (t.p.c, t.p.z, t.p.n)) =
    some (true, false, true) := by decide
/-- The example of R171. -/
theorem test_inc_zp : (go .nmos 0x0600 [0xE6, 0x10] [(0x0010, 0xFF)]
    id).map (fun t => (t.mem.read 0x0010, t.p.z, t.p.n)) =
    some (0x00, true, false) := by decide
/-- The example of R172. -/
theorem test_dec_abs : (go .nmos 0x0600 [0xCE, 0x00, 0x02] [(0x0200, 0x01)]
    id).map (fun t => (t.mem.read 0x0200, t.p.z, t.p.n)) =
    some (0x00, true, false) := by decide
/-- The example of R173. -/
theorem test_inx : (go .nmos 0x0600 [0xE8] []
    (fun s => { s with x := 0x7F })).map (fun t => (t.x, t.p.n, t.p.z)) =
    some (0x80, true, false) := by decide
/-- The example of R174. -/
theorem test_iny : (go .nmos 0x0600 [0xC8] []
    id).map (fun t => (t.y, t.p.n, t.p.z)) =
    some (0x01, false, false) := by decide
/-- The example of R175. -/
theorem test_dex : (go .nmos 0x0600 [0xCA] []
    (fun s => { s with x := 0x01 })).map (fun t => (t.x, t.p.z, t.p.n)) =
    some (0x00, true, false) := by decide
/-- The example of R176. -/
theorem test_dey : (go .nmos 0x0600 [0x88] []
    id).map (fun t => (t.y, t.p.n, t.p.z)) =
    some (0xFF, true, false) := by decide
/-- The example of R177. -/
theorem test_asl_acc : (go .nmos 0x0600 [0x0A] []
    (fun s => { s with a := 0x81 })).map (fun t => (t.a, t.p.c, t.p.z, t.p.n)) =
    some (0x02, true, false, false) := by decide
/-- The example of R178. -/
theorem test_lsr_acc : (go .nmos 0x0600 [0x4A] []
    (fun s => { s with a := 0x03 })).map (fun t => (t.a, t.p.c, t.p.z, t.p.n)) =
    some (0x01, true, false, false) := by decide
/-- The example of R179. -/
theorem test_rol_acc : (go .nmos 0x0600 [0x2A] []
    (fun s => { s with a := 0x40, p := { s.p with c := true } })).map (fun t => (t.a, t.p.c, t.p.z, t.p.n)) =
    some (0x81, false, false, true) := by decide
/-- The example of R180. -/
theorem test_ror_acc : (go .nmos 0x0600 [0x6A] []
    (fun s => { s with a := 0x02, p := { s.p with c := true } })).map (fun t => (t.a, t.p.c, t.p.z, t.p.n)) =
    some (0x81, false, false, true) := by decide
/-- The example of R190. -/
theorem test_jmp_abs : (go .nmos 0x0600 [0x4C, 0x34, 0x12] [] id).map (fun t => t.pc) = some 0x1234 := by decide
/-- The example of R110. -/
theorem test_jmp_ind_nmos : (go .nmos 0x0600 [0x6C, 0xFF, 0x02] [(0x02FF, 0x34), (0x0300, 0x56), (0x0200, 0x12)]
    id).map (fun t => t.pc) =
    some 0x1234 := by decide
/-- The example of R245. -/
theorem test_jmp_ind_cmos : (go .cmos 0x0600 [0x6C, 0xFF, 0x02] [(0x02FF, 0x34), (0x0300, 0x56), (0x0200, 0x12)]
    id).map (fun t => (t.pc, t.clock)) =
    some (0x5634, 6) := by decide
/-- The example of R244. -/
theorem test_jmp_iax : (go .cmos 0x0600 [0x7C, 0x00, 0x03] [(0x0303, 0x90)]
    (fun s => { s with x := 0x02 })).map (fun t => t.pc) =
    some 0x9000 := by decide
/-- The example of R191. -/
theorem test_jsr : (go .nmos 0x0600 [0x20, 0x00, 0x07] []
    id).map (fun t => (t.mem.read 0x01FD, t.mem.read 0x01FC, t.sp, t.pc)) =
    some (0x06, 0x02, 0xFB, 0x0700) := by decide
/-- The example of R192. -/
theorem test_rts : (go .nmos 0x0600 [0x60] [(0x01FC, 0x02), (0x01FD, 0x06)]
    (fun s => { s with sp := 0xFB })).map (fun t => (t.pc, t.sp)) =
    some (0x0603, 0xFD) := by decide
/-- The example of R194. -/
theorem test_bcc_taken : (go .nmos 0x0600 [0x90, 0x05] [] id).map (fun t => t.pc) = some 0x0607 := by decide
/-- The example of R195. -/
theorem test_bcs_crosses : (go .nmos 0x0600 [0xB0, 0xFC] []
    (fun s => { s with p := { s.p with c := true } })).map (fun t => (t.pc, t.clock)) =
    some (0x05FE, 4) := by decide
/-- The example of R196. -/
theorem test_beq : (go .nmos 0x0600 [0xF0, 0x10] []
    (fun s => { s with p := { s.p with z := true } })).map (fun t => t.pc) =
    some 0x0612 := by decide
/-- The example of R197. -/
theorem test_bmi : (go .nmos 0x0600 [0x30, 0x7F] []
    (fun s => { s with p := { s.p with n := true } })).map (fun t => t.pc) =
    some 0x0681 := by decide
/-- The example of R198. -/
theorem test_bne : (go .nmos 0x0605 [0xD0, 0xFB] [] id).map (fun t => t.pc) = some 0x0602 := by decide
/-- The example of R199. -/
theorem test_bpl : (go .nmos 0x0600 [0x10, 0x80] [] id).map (fun t => t.pc) = some 0x0582 := by decide
/-- The example of R200. -/
theorem test_bvc : (go .nmos 0x0600 [0x50, 0x02] [] id).map (fun t => t.pc) = some 0x0604 := by decide
/-- The example of R201. -/
theorem test_bvs_wraps : (go .nmos 0xFFF0 [0x70, 0x20] []
    (fun s => { s with p := { s.p with v := true } })).map (fun t => t.pc) =
    some 0x0012 := by decide
/-- The example of R210. -/
theorem test_clc : (go .nmos 0x0600 [0x18] []
    (fun s => { s with p := { s.p with c := true } })).map (fun t => t.p.c) =
    some false := by decide
/-- The example of R212. -/
theorem test_cli : (go .nmos 0x0600 [0x58] []
    (fun s => { s with p := { s.p with i := true } })).map (fun t => t.p.i) =
    some false := by decide
/-- The example of R214. -/
theorem test_cld : (go .nmos 0x0600 [0xD8] []
    (fun s => { s with p := { s.p with d := true } })).map (fun t => t.p.d) =
    some false := by decide
/-- The example of R216. -/
theorem test_clv : (go .nmos 0x0600 [0xB8] []
    (fun s => { s with p := { s.p with v := true } })).map (fun t => t.p.v) =
    some false := by decide
/-- The example of R211. -/
theorem test_sec : (go .nmos 0x0600 [0x38] [] id).map (fun t => t.p.c) = some true := by decide
/-- The example of R213. -/
theorem test_sei : (go .nmos 0x0600 [0x78] [] id).map (fun t => t.p.i) = some true := by decide
/-- The example of R215. -/
theorem test_sed : (go .nmos 0x0600 [0xF8] [] id).map (fun t => t.p.d) = some true := by decide
/-- The example of R217. -/
theorem test_nop : (go .nmos 0x0600 [0xEA] [] id).map (fun t => (t.pc, t.clock)) = some (0x0601, 2) := by decide
/-- The example of R220. -/
theorem test_brk : (go .nmos 0x0600 [0x00] [(0xFFFF, 0x80)]
    (fun s => { s with p := { s.p with z := true, c := true } })).map (fun t => (t.mem.read 0x01FD, t.mem.read 0x01FC, t.mem.read 0x01FB, t.sp, t.p.i, t.pc)) =
    some (0x06, 0x02, 0x33, 0xFA, true, 0x8000) := by decide
/-- The example of R221. -/
theorem test_rti : (go .nmos 0x0600 [0x40] [(0x01FB, 0x33), (0x01FC, 0x02), (0x01FD, 0x06)]
    (fun s => { s with sp := 0xFA })).map (fun t => (t.p.image true, t.pc, t.sp)) =
    some (0x33, 0x0602, 0xFD) := by decide
/-- The example of R231. -/
theorem test_lda_izp : (go .cmos 0x0600 [0xB2, 0x10] [(0x0011, 0x02), (0x0200, 0x7E)]
    id).map (fun t => (t.a, t.p.z, t.p.n)) =
    some (0x7E, false, false) := by decide
/-- The example of R241. -/
theorem test_inc_acc : (go .cmos 0x0600 [0x1A] []
    (fun s => { s with a := 0x7F })).map (fun t => (t.a, t.p.n, t.p.z)) =
    some (0x80, true, false) := by decide
/-- The example of R242. -/
theorem test_dec_acc : (go .cmos 0x0600 [0x3A] []
    (fun s => { s with a := 0x01 })).map (fun t => (t.a, t.p.z, t.p.n)) =
    some (0x00, true, false) := by decide
/-- The example of R243. -/
theorem test_bit_imm : (go .cmos 0x0600 [0x89, 0xF0] []
    (fun s => { s with a := 0x0F })).map (fun t => (t.p.z, t.p.n, t.p.v)) =
    some (true, false, false) := by decide
/-- The example of R232. -/
theorem test_bra : (go .cmos 0x0600 [0x80, 0x10] [] id).map (fun t => t.pc) = some 0x0612 := by decide
/-- The example of R233. -/
theorem test_phx : (go .cmos 0x0600 [0xDA] []
    (fun s => { s with x := 0x11 })).map (fun t => (t.mem.read 0x01FD, t.sp)) =
    some (0x11, 0xFC) := by decide
/-- The example of R234. -/
theorem test_phy : (go .cmos 0x0600 [0x5A] []
    (fun s => { s with y := 0x22, sp := 0xFC })).map (fun t => (t.mem.read 0x01FC, t.sp)) =
    some (0x22, 0xFB) := by decide
/-- The example of R235. -/
theorem test_plx : (go .cmos 0x0600 [0xFA] [(0x01FD, 0x80)]
    (fun s => { s with sp := 0xFC })).map (fun t => (t.x, t.sp, t.p.n, t.p.z)) =
    some (0x80, 0xFD, true, false) := by decide
/-- The example of R236. -/
theorem test_ply : (go .cmos 0x0600 [0x7A] []
    (fun s => { s with sp := 0xFB, y := 0x11 })).map (fun t => (t.y, t.sp, t.p.z, t.p.n)) =
    some (0x00, 0xFC, true, false) := by decide
/-- The example of R237. -/
theorem test_stz_abs : (go .cmos 0x0600 [0x9C, 0x00, 0x02] [(0x0200, 0xAB)]
    id).map (fun t => t.mem.read 0x0200) =
    some 0x00 := by decide
/-- The example of R238. -/
theorem test_trb_zp : (go .cmos 0x0600 [0x14, 0x10] [(0x0010, 0x3C)]
    (fun s => { s with a := 0x0F })).map (fun t => (t.mem.read 0x0010, t.p.z)) =
    some (0x30, false) := by decide
/-- The example of R239. -/
theorem test_tsb_zp : (go .cmos 0x0600 [0x04, 0x10] [(0x0010, 0x30)]
    (fun s => { s with a := 0x0F })).map (fun t => (t.mem.read 0x0010, t.p.z)) =
    some (0x3F, true) := by decide

/-! ## Reset, interrupts, the fatal decode error, devices -/

/-- 70_reset_and_hazards.md R300: `55 AA` at the reset vector gives `PC = 0xAA55`. -/
theorem test_reset_vector : (coreAt .nmos 0xFFFC [0x55, 0xAA] []).doReset.pc = 0xAA55 := by decide
/-- R300: `S = 0xFD`, `I = 1`, seven cycles. -/
theorem test_reset_values : (fun t : State => (t.sp, t.p.i, t.clock, t.run)) (coreAt .nmos 0xFFFC [0x55, 0xAA] []).doReset =
    (0xFD, true, 7, .running) := by decide
/-- 60_exceptions.md R269, R272: an NMI is entered through `0xFFFA` with `B = 0` in the pushed status. -/
theorem test_nmi_entry : (go .cmos 0x0600 [0xEA] [(0xFFFB, 0x90)] State.assertNMI).map
    (fun t => (t.pc, t.sp, t.mem.read 0x01FB, t.p.i, t.nmiPending, t.clock)) =
    some (0x9000, 0xFA, 0x20, true, false, 7) := by decide
/-- R268: with both pending the NMI goes first; the IRQ line stays. -/
theorem test_nmi_before_irq : (go .cmos 0x0600 [0xEA] [(0xFFFB, 0x90)] (fun s => s.assertIRQ.assertNMI)).map
    (fun t => (t.pc, t.irqLine)) = some (0x9000, true) := by decide
/-- R267: an IRQ with `I = 1` waits; the instruction runs. -/
theorem test_irq_masked : (go .cmos 0x0600 [0xEA] [] (fun s => { s.assertIRQ with p := { s.p with i := true } })).map
    (fun t => t.pc) = some 0x0601 := by decide
/-- R261: `02` is illegal in both variants; `PC` stays at it. -/
theorem test_illegal_halts : (go .nmos 0x0600 [0x02] [] id).map (fun t => (t.run, t.err, t.pc, t.clock)) =
    some (.halted, some (0x02, 0x0600), 0x0600, 1) := by decide
/-- 60_exceptions.md R285: a halted core has no step; `Reset()` leaves `Halted`. -/
theorem test_halted_stays : next (Machine.step { State.reset with run := .halted }) = none := by decide
/-- 20_memory.md R70, 60_exceptions.md R266: a device answers a read, takes two cycles and asserts the IRQ. -/
theorem test_device_read : (go .cmos 0x0600 [0xAD, 0x00, 0xD0] [] (fun s => { s with
    regions := [{ base := 0xD000, size := 16, kind := .device 0 }],
    inputs := [{ value := 0x7E, cost := 2, nmi := false, irq := some true, stores := [(0x0300, 0x11)] }] })).map
    (fun t => (t.a, t.clock, t.irqLine, t.mem.read 0x0300)) = some (0x7E, 6, true, 0x11) := by decide

/-! ## Witnesses: states that meet the statements' hypotheses -/

/-- 70_reset_and_hazards.md R315: the opcode and the two operand bytes take a cycle each, so a device's read at the end of `LDA
abs` is made with three cycles passed. -/
theorem test_each_access_takes_a_cycle : ((coreAt .cmos 0x0600 [0xAD, 0x00, 0xD0] []).afterFetches 3).clock = 3 := by decide
/-- 20_memory.md R55: a map of a RAM window below a ROM window is accepted, one whose windows share a byte is not. -/
theorem test_overlap_is_malformed : regionsOk [{ base := 0, size := 16, kind := .ram }, { base := 16, size := 16, kind := .rom }] = true ∧
    regionsOk [{ base := 0, size := 17, kind := .ram }, { base := 16, size := 16, kind := .rom }] = false := by decide
/-- R54: `WriteRange` stores in ROM, and refuses a range past 0xFFFF. -/
theorem test_write_range : ((State.writeRange { State.reset with regions := [{ base := 0xF000, size := 0x1000, kind := .rom }] } 0xFFFF
      [0x42]).map
      (State.readByte · 0xFFFF)) = some 0x42 ∧ (State.reset.writeRange 0xFFFF [0x42, 0x43]).isNone = true := by decide

/-- A map with a ROM window at the top and a device window of sixteen bytes. -/
def mixedMap : List Region :=
  [{ base := 0xF000, size := 0x1000, kind := .rom }, { base := 0xD000, size := 16, kind := .device 3 }]

/-- ROM at the top, RAM elsewhere. -/
def romState : State := { State.reset with regions := [{ base := 0xF000, size := 0x1000, kind := .rom }] }

theorem allPlain_of_empty {s : State} (h : s.regions = []) : AllPlain s := by
  intro a id e
  rw [h] at e
  cases e

theorem allPlain_romState : AllPlain romState := by
  intro a id h
  simp only [romState, regionAt, List.find?_cons, List.find?_nil] at h
  cases hh : regionHolds { base := 0xF000, size := 0x1000, kind := .rom } a <;> rw [hh] at h <;> cases h

/-- A core whose map has RAM, ROM and a device. -/
def mixedCore : State := { State.reset with regions := mixedMap }

theorem noDevice_of {s : State} {l : List Addr}
    (h : l.all (fun a => regionAt s.regions a == .ram || regionAt s.regions a == .rom) = true) : NoDevice s l := by
  intro a ha id e
  have := List.all_eq_true.1 h a ha
  rw [e] at this
  cases this

theorem stackIsRam_reset : StackIsRam State.reset := fun _ => rfl

theorem inv_reset : Inv State.reset := ⟨Memory.nil_wf, by decide, by decide⟩

theorem witness_DecodeOfEncodeIsTheInstruction :
    Instr.wellFormed .nmos (.ldaAbsx 0xFFFF) = true ∧ Instr.wellFormed .cmos (.tsbZp 0xFF) = true := by decide
theorem witness_DecodedBytesAreTheEncoding : decode .cmos [0x1C, 0xFF, 0xFF, 0xEA] = .ok (.trbAbs 0xFFFF, [0xEA]) := by decide
theorem witness_RamHoldsWhatWasWritten : romState.mem.wf ∧ regionAt romState.regions 0xEFFF = .ram ∧
    regionAt romState.regions 0xF000 = .rom ∧ regionAt romState.regions 0xFFFF = .rom ∧
    NoDevice mixedCore [0xCFFF, 0xD010] ∧ (0xD010 : Addr) ≠ 0xCFFF :=
  ⟨Memory.nil_wf, by decide, by decide, by decide, noDevice_of (by decide), by decide⟩
theorem witness_DeviceAccessesReachNoRegister : mixedCore.mem.wf ∧ regionAt mixedCore.regions 0xD000 = .device 3 ∧
    regionAt mixedCore.regions 0xD00F = .device 3 ∧ regionAt mixedCore.regions 0xD010 = .ram ∧
    regionAt mixedCore.regions 0xF000 = .rom := ⟨Memory.nil_wf, by decide, by decide, by decide, by decide⟩
theorem witness_PointerModesReadZeroPage : NoDevice mixedCore (pointers (.indx 0xFF) mixedCore) ∧
    NoDevice mixedCore (pointers (.izp 0xFF) mixedCore) := ⟨noDevice_of (by decide), noDevice_of (by decide)⟩
theorem witness_OperandsAreLoadedFromMemory : NoDevice mixedCore (modeTouches (.indy 0xFF) mixedCore) ∧
    NoDevice mixedCore (modeTouches (.abs 0xFFFF) mixedCore) := ⟨noDevice_of (by decide), noDevice_of (by decide)⟩
theorem witness_LoadsWriteRegisterAndNZ : NoDevice mixedCore (srcTouches (.mem (.izp 0xFF)) mixedCore) ∧
    NoDevice mixedCore (srcTouches (.imm 0x80) mixedCore) := ⟨noDevice_of (by decide), noDevice_of (by decide)⟩
theorem witness_LogicWritesAccumulatorAndNZ : NoDevice mixedCore (srcTouches (.mem (.absx 0xCFFF)) mixedCore) :=
  noDevice_of (by decide)
theorem witness_BitTestsWriteFlagsOnly : NoDevice mixedCore (srcTouches (.mem (.zpx 0xFF)) mixedCore) :=
  noDevice_of (by decide)
theorem witness_ComparesWriteCZN : NoDevice mixedCore (srcTouches (.mem (.indx 0xFF)) mixedCore) := noDevice_of (by decide)
theorem witness_StoresWriteTheOperandAlone : State.reset.mem.wf ∧ NoDevice State.reset (modeTouches (.absx 0xFFFF) State.reset) ∧
    regionAt State.reset.regions ((MemMode.absx 0xFFFF).ea State.reset) = .ram :=
  ⟨Memory.nil_wf, noDevice_of (by decide), by decide⟩
theorem witness_PushesWriteTheStackSlot : mixedCore.mem.wf ∧ NoDevice mixedCore [stackSlot 0x00, stackSlot 0xFF] ∧
    regionAt mixedCore.regions (stackSlot 0x00) = .ram ∧ regionAt mixedCore.regions (stackSlot 0xFF) = .ram :=
  ⟨Memory.nil_wf, noDevice_of (by decide), by decide, by decide⟩
theorem witness_PullsLoadFromTheStack : NoDevice mixedCore [stackSlot (0xFF + 1)] := noDevice_of (by decide)
theorem witness_BinaryAddition : (coreAt .nmos 0x0600 [] []).p.d = false ∧
    (Instr.adcImm 0xFF, Src.imm 0xFF) ∈ adcForms 0xFF 0 0 := by decide
theorem witness_BinarySubtraction : (coreAt .nmos 0x0600 [] []).p.d = false ∧
    (Instr.sbcAbsx 0xFFFF, Src.mem (.absx 0xFFFF)) ∈ sbcForms 0 0 0xFFFF := by decide

/-- A core in decimal mode with `A = 0x99`. -/
def decimalCore (variant : Variant) : State :=
  { coreAt variant 0x0600 [] [] with a := 0x99, p := { (coreAt variant 0x0600 [] []).p with d := true } }

theorem witness_DecimalFunctions : (decimalCore .nmos).p.d = true ∧ (decimalCore .cmos).p.d = true ∧
    (decimalCore .nmos).variant = .nmos ∧ (decimalCore .cmos).variant = .cmos := by decide
theorem witness_DecimalArithmeticIsCorrectOnBcd : (decimalCore .nmos).p.d = true ∧ isBcd (decimalCore .nmos).a ∧
    (Instr.adcImm 0x99, Src.imm 0x99) ∈ adcForms 0x99 0 0 ∧ isBcd ((Src.imm 0x99).value (decimalCore .nmos)) ∧
    (Instr.sbcImm 0x99, Src.imm 0x99) ∈ sbcForms 0x99 0 0 := by
  refine ⟨rfl, ?_, by decide, ?_, by decide⟩ <;> constructor <;> decide
theorem witness_IncrementAndDecrementOperands : mixedCore.mem.wf ∧ NoDevice mixedCore (modeTouches (.zpx 0xFF) mixedCore) ∧
    regionAt mixedCore.regions ((MemMode.zpx 0xFF).ea mixedCore) = .ram :=
  ⟨Memory.nil_wf, noDevice_of (by decide), by decide⟩
theorem witness_ShiftsAndRotates : mixedCore.mem.wf ∧ NoDevice mixedCore (modeTouches (.abs 0xCFFF) mixedCore) ∧
    regionAt mixedCore.regions ((MemMode.abs 0xCFFF).ea mixedCore) = .ram :=
  ⟨Memory.nil_wf, noDevice_of (by decide), by decide⟩
theorem witness_TestAndChangeBits : mixedCore.mem.wf ∧ NoDevice mixedCore (modeTouches (.zp 0xFF) mixedCore) ∧
    regionAt mixedCore.regions ((MemMode.zp 0xFF).ea mixedCore) = .ram :=
  ⟨Memory.nil_wf, noDevice_of (by decide), by decide⟩
theorem witness_JumpsLoadPc : NoDevice mixedCore [0xCFFF, 0xCF00] ∧ NoDevice mixedCore [0xFFFF, 0x0000] :=
  ⟨noDevice_of (by decide), noDevice_of (by decide)⟩
theorem witness_JsrPushesReturnMinusOne : NoDevice mixedCore [stackSlot 0x00, stackSlot (0x00 - 1)] ∧ mixedCore.mem.wf ∧
    regionAt mixedCore.regions (stackSlot 0x00) = .ram ∧ regionAt mixedCore.regions (stackSlot (0x00 - 1)) = .ram :=
  ⟨noDevice_of (by decide), Memory.nil_wf, by decide, by decide⟩
theorem witness_RtsPullsAndAddsOne : NoDevice mixedCore [stackSlot (0xFE + 1), stackSlot (0xFE + 2)] :=
  noDevice_of (by decide)

/-- A core with the stack at its lower end, where a call wraps, and a device in its map. -/
def lowStack : State := { mixedCore with sp := 0x00 }

theorem stackIsRam_lowStack : StackIsRam lowStack := by
  intro sp
  have h := sp.isLt
  have e : (stackSlot sp).toNat = 256 + sp.toNat := by simp [stackSlot]; omega
  have h1 : ¬ 0xF000 ≤ (stackSlot sp).toNat := by omega
  have h2 : ¬ 0xD000 ≤ (stackSlot sp).toNat := by omega
  simp [lowStack, mixedCore, mixedMap, regionAt, regionHolds, h1, h2]

theorem witness_RtsReturnsBehindTheJsr : ∃ t u, lowStack.mem.wf ∧ StackIsRam lowStack ∧
    exec (.jsr 0x0700) lowStack = .next t ∧ exec .rts (t.setPc 0x1234) = .next u :=
  ⟨_, _, Memory.nil_wf, stackIsRam_lowStack, rfl, rfl⟩
theorem witness_RtiUndoesAnEntry : (∃ u, lowStack.mem.wf ∧ StackIsRam lowStack ∧
      NoDevice lowStack [0xFFFA, 0xFFFB, 0xFFFE, 0xFFFF] ∧ exec .rti (lowStack.nmiEntry.setPc 0x1234) = .next u) ∧
    (∃ u, exec .rti (lowStack.irqEntry.setPc 0x1234) = .next u) ∧
    ∃ t u, exec .brk lowStack = .next t ∧ exec .rti (t.setPc 0x1234) = .next u :=
  ⟨⟨_, Memory.nil_wf, stackIsRam_lowStack, noDevice_of (by decide), rfl⟩, ⟨_, rfl⟩, ⟨_, _, rfl, rfl⟩⟩
theorem witness_BrkEntersTheHandler : NoDevice lowStack (entryTouches lowStack 0xFFFE) ∧ lowStack.mem.wf ∧
    StackIsRam lowStack := ⟨noDevice_of (by decide), Memory.nil_wf, stackIsRam_lowStack⟩
theorem witness_RtiRestoresFlagsAndPc :
    NoDevice mixedCore [stackSlot (0xFD + 1), stackSlot (0xFD + 2), stackSlot (0xFD + 3)] := noDevice_of (by decide)

/-- A core with an NMI pending, the IRQ line high, or both. -/
def interrupted (nmi irq : Bool) (i : Bool) : State :=
  { coreAt .cmos 0x0600 [0xEA] [] with
    regions := mixedMap, nmiPending := nmi, irqLine := irq, p := { (coreAt .cmos 0x0600 [] []).p with i := i } }

theorem witness_StepRunsTheDecodedInstruction : (interrupted false true true).run = .running ∧
    (interrupted false true true).nmiPending = false ∧ (interrupted false true true).p.i = true ∧
    decode (interrupted false true true).variant (State.fetchedBytes 3 (interrupted false true true)) =
      .ok (.nop, [0x00, 0x00]) := by decide
theorem witness_FetchReadsConsecutiveBytes :
    NoDevice mixedCore ((List.range 3).map (fun k => BitVec.ofNat 16 (0xFFFF + k))) := noDevice_of (by decide)
theorem witness_IllegalOpcodeHalts : NoDevice (coreAt .nmos 0x0600 [0x02] []) [0x0600] ∧
    (coreAt .nmos 0x0600 [0x02] []).run = .running ∧ (coreAt .nmos 0x0600 [0x02] []).nmiPending = false ∧
    (coreAt .nmos 0x0600 [0x02] []).irqLine = false ∧
    (coreAt .nmos 0x0600 [0x02] []).readByte (coreAt .nmos 0x0600 [0x02] []).pc ∈ illegalNmos ∧
    (coreAt .cmos 0x0600 [0xFF] []).readByte (coreAt .cmos 0x0600 [0xFF] []).pc ∈ illegalCmos :=
  ⟨noDevice_of (by decide), by decide, by decide, by decide, by decide, by decide⟩
theorem witness_NmiIsServicedFirst :
    NoDevice (interrupted true true false) (entryTouches (interrupted true true false) 0xFFFA) ∧
    (interrupted true true false).run = .running ∧ (interrupted true true false).nmiPending = true :=
  ⟨noDevice_of (by decide), rfl, rfl⟩
theorem witness_IrqIsServicedWhenUnmasked :
    NoDevice (interrupted false true false) (entryTouches (interrupted false true false) 0xFFFE) ∧
    (interrupted false true false).run = .running ∧ (interrupted false true false).nmiPending = false ∧
    (interrupted false true false).irqLine = true ∧ (interrupted false true false).p.i = false :=
  ⟨noDevice_of (by decide), rfl, rfl, rfl, rfl⟩
/-- A core with `I = 1` and no device. -/
def maskedCore : State := { interrupted false false true with regions := [] }

theorem witness_MaskedIrqWaits : ∃ t, maskedCore.run = .running ∧ maskedCore.nmiPending = false ∧ maskedCore.p.i = true ∧
    AllPlain maskedCore ∧ Machine.step (maskedCore.setIrq false) = .next t :=
  ⟨_, rfl, rfl, rfl, allPlain_of_empty rfl, rfl⟩
theorem witness_StepOutsideRunningIsStuck : State.reset.run = .running ∧
    ({ State.reset with run := .uninitialized } : State).run = .uninitialized ∧
    ({ State.reset with run := .resetting } : State).run = .resetting ∧
    ({ State.reset with run := .halted } : State).run = .halted := ⟨rfl, rfl, rfl, rfl⟩
theorem witness_ResetFromAnyState :
    NoDevice { mixedCore with run := .halted, err := some (0x02, 0x0600) } [0xFFFC, 0xFFFD] := noDevice_of (by decide)
theorem witness_ResetStateValues : State.reset.variant = .cmos := rfl
theorem witness_WriteRangeStoresEachByte : State.reset.mem.wf ∧ 65536 < 65535 + [0x11#8, 0x22#8].length ∧
    65534 + [0x11#8, 0x22#8].length ≤ 65536 ∧ [0x11#8, 0x22#8][1]? = some 0x22#8 ∧ (65533 < 65534) :=
  ⟨Memory.nil_wf, by decide, by decide, by decide, by decide⟩
theorem witness_StepKeepsTheInvariant : ∃ t, Inv State.reset ∧ Machine.step State.reset = .next t := ⟨_, inv_reset, rfl⟩
theorem witness_ReachableStatesHaveTheInvariant : ∃ t, Inv State.reset ∧ Reaches State.reset t ∧ t ≠ State.reset :=
  ⟨State.reset.assertNMI, inv_reset, .tail _ _ _ (.refl _) (.assertNMI _), by decide⟩
theorem witness_VariantAndMapNeverChange : ∃ t, Reaches State.reset t ∧ t ≠ State.reset :=
  ⟨State.reset.doReset, .tail _ _ _ (.refl _) (.reset _), by decide⟩
theorem witness_ClockCoversEveryAccess : ∃ t, Machine.step (coreAt .nmos 0x0600 [0xFE, 0xFF, 0x12] []) = .next t := ⟨_, rfl⟩

/-- A record of one write and one read of the same byte of RAM, with the memory it leaves. -/
def recorded : State :=
  { coreAt .cmos 0x0600 [0xEA] [(0x0010, 0x05)] with log := [.read 0x0010 0x05, .write 0x0010 0x05] }

theorem witness_RamIsSequentiallyConsistent : ∃ t, recorded.mem.wf ∧ AllPlain recorded ∧ Coherent recorded ∧
    Machine.step recorded = .next t := by
  refine ⟨_, by decide, allPlain_of_empty rfl, ⟨fun a v _ h => ?_, fun newer older a v w h _ hw => ?_⟩, rfl⟩
  · simp only [recorded, lastWrite] at h
    split at h
    · next e =>
      subst e
      cases h
      decide
    · cases h
  · simp only [recorded] at h
    match newer, h with
    | [], h =>
      cases h
      simpa [lastWrite] using hw
    | [_], h => simp at h
    | _ :: _ :: newer, h => simp at h
theorem witness_FlagsHaveOnlyTheirWriters : ∃ t, exec .nop State.reset = .next t ∧
    mnemonic .nop ∉ ["ADC", "SBC", "BIT", "CLV", "PLP", "RTI"] ∧ mnemonic .brk = "BRK" ∧
    (coreAt .nmos 0x0600 [] []).variant = .nmos := ⟨_, rfl, by decide, rfl, rfl⟩
theorem witness_InstructionsReachNoCoreControlState : AllPlain State.reset ∧ State.reset.assertNMI.nmiPending = true :=
  ⟨allPlain_of_empty rfl, rfl⟩
theorem witness_StackPointerHasOnlyItsWriters : ∃ t, exec .tax State.reset = .next t ∧
    mnemonic .tax ∉ ["LDY", "TAY", "INY", "DEY", "PLY"] := ⟨_, rfl, by decide⟩
theorem witness_MemoryChangesOnlyInStores : ∃ t u, AllPlain State.reset ∧ exec .tax State.reset = .next t ∧
    exec .pha State.reset = .next u ∧ mnemonic .pha ∈ ["PHA", "PHP", "PHX", "PHY", "JSR", "BRK"] ∧ 0x00FF / 256 ≠ 1 ∧
    0x0200 / 256 ≠ 1 := ⟨_, _, allPlain_of_empty rfl, rfl, rfl, by decide, by decide, by decide⟩
theorem witness_CyclesOfOperandInstructions : NoDevice mixedCore (srcTouches (.mem (.indy 0xFF)) mixedCore) ∧
    NoDevice mixedCore (modeTouches (.absy 0xFFFF) mixedCore) ∧ NoDevice mixedCore (dstTouches (.mem (.zp 0xFF)) mixedCore) ∧
    NoDevice mixedCore (dstTouches .acc mixedCore) :=
  ⟨noDevice_of (by decide), noDevice_of (by decide), noDevice_of (by decide), noDevice_of (by decide)⟩
theorem witness_CyclesOfOtherInstructions : AllPlain (coreAt .nmos 0x0600 [] []) ∧ AllPlain (coreAt .cmos 0x0600 [] []) :=
  ⟨allPlain_of_empty rfl, allPlain_of_empty rfl⟩
theorem witness_PlacedWordIsTheNextInstruction : State.reset.mem.wf ∧
    decode State.reset.variant (bytesOfWord 16 0x80A9) = .ok (.ldaImm 0x80, [0x00]) := ⟨Memory.nil_wf, by decide⟩

/-- A configuration that construction accepts. -/
def goodConfig : SessionConfig := { Laws.resetSession with regions := mixedMap }

theorem goodConfig_construct : goodConfig.construct.isSome = true := by decide

theorem witness_ConstructionRefusesBadConfigurations : GoodConfig goodConfig ∧
    MapMalformed [{ base := 0xFFFF, size := 2, kind := .ram }] ∧
    MapMalformed [{ base := 0, size := 2, kind := .ram }, { base := 1, size := 1, kind := .rom }] ∧
    ¬ GoodConfig { goodConfig with image := [] } := by
  have hm : ¬ MapMalformed goodConfig.regions := by
    rintro (⟨r, hr, h⟩ | ⟨i, j, r, q, n, hij, hi, hj, h1, h2⟩)
    · fin_cases hr <;> simp at h
    · match i, j, hi, hj with
      | 0, 1, hi, hj => cases hi; cases hj; simp only [InWindow] at h1 h2; omega
      | 0, j + 2, _, hj => simp [goodConfig, mixedMap] at hj
      | i + 1, j, _, hj =>
        have : 2 ≤ j := by omega
        rw [List.getElem?_eq_none (by simpa [goodConfig, mixedMap] using this)] at hj
        cases hj
  refine ⟨⟨hm, ?_, .inl ⟨(0xFFFC, [0, 0]), ?_, ?_⟩, .inl ⟨(0xFFFC, [0, 0]), ?_, ?_⟩⟩, .inl ⟨_, List.mem_cons_self .., ?_⟩,
    .inr ⟨0, 1, _, _, 1, by omega, rfl, rfl, ⟨by decide, by decide⟩, ⟨by decide, by decide⟩⟩, ?_⟩
  · intro w hw
    simp only [goodConfig, Laws.resetSession, List.mem_singleton] at hw
    subst hw
    decide
  · exact List.mem_cons_self ..
  · decide
  · exact List.mem_cons_self ..
  · decide
  · decide
  · rintro ⟨-, -, ⟨w, hw, -⟩ | ⟨id, h⟩, -⟩
    · cases hw
    · exact absurd h (by simp [goodConfig, mixedMap, regionAt, regionHolds])

end Sys2Proof.Tests
end

section
/-!
PROOFS. The family of 00_scope.md: what one access of a device does (R7, R60, R70), and that every operation of the core and of
the host keeps the invariant (R8, R44).
-/

namespace Sys2Proof

open Sys2Proof.Machine Sys2Proof.Claims

/-! ## Device stores -/

/-- What a list of stores leaves in a canonical memory: a canonical memory, where an address reads as the last byte stored
there, and as before where none was. -/
theorem foldl_write_reads {m : Memory} (hw : m.wf) (l : List (Addr × Byte)) :
    (l.foldl (fun m w => m.write w.1.toNat w.2) m).wf ∧ ∀ n,
      (l.foldl (fun m w => m.write w.1.toNat w.2) m).read n =
        (l.reverse.find? (fun w => w.1.toNat == n)).elim (m.read n) (·.2) := by
  induction l using List.reverseRecOn with
  | nil => exact ⟨hw, fun n => rfl⟩
  | append_singleton l w ih =>
    obtain ⟨hl, hread⟩ := ih
    simp only [List.foldl_append, List.foldl_cons, List.foldl_nil, List.reverse_append, List.reverse_singleton,
      List.singleton_append]
    refine ⟨Memory.write_wf hl _ w.1.isLt _, fun n => ?_⟩
    by_cases hn : w.1.toNat = n
    · subst hn
      simp [Memory.read_write_same hl.1]
    · simp [Memory.read_write_other _ _ _ _ (Ne.symm hn), hread, hn]

/-- The reply the model takes is the one the statement names. -/
theorem nextReply_eq_deviceReply (s : State) (id : Nat) (a : Addr) (written : Option Byte) :
    nextReply s id a written = s.deviceReply id a written := rfl

/-- An access that a device answers with `r`, recorded as `x`, does what the reply says and nothing else. -/
theorem serves_deviceActs (s : State) (r : DeviceReply) (x : Access) :
    Serves s (((s.deviceActs r).logged x).tick 1) r x := by
  refine ⟨?_, fun hw => ?_⟩
  · cases hi : r.irq <;> simp [State.deviceActs, State.logged, State.tick, hi, Nat.add_right_comm]
  · obtain ⟨hwf, hread⟩ := foldl_write_reads hw r.stores
    refine ⟨hwf, fun n => (hread n).trans ?_⟩
    cases r.stores.reverse.find? (fun w => w.1.toNat == n) <;> rfl

/-- Settles O6: each access of a device is `deviceActs`, recorded, with its one cycle. -/
theorem deviceAccessesReachNoRegister : Obligations.DeviceAccessesReachNoRegister := by
  intro s a v
  refine ⟨fun id h => ?_, fun h => State.writeByte_rom s a v h⟩
  have hbyte : s.readByte a = (nextReply s id a none).value := by simp only [State.readByte, h, nextReply_eq_deviceReply]
  refine ⟨hbyte, ?_, ?_⟩
  · rw [State.afterRead_device s a id h, hbyte]
    exact serves_deviceActs ..
  · rw [State.writeByte_device s a v id h]
    exact serves_deviceActs ..

/-! ## The invariant -/

section Invariant

variable {s t : State}

/-- The invariant speaks of memory, run state and error record alone. -/
theorem Inv.of_same_run (hs : Inv s) (hm : t.mem.wf) (hr : t.run = s.run) (he : t.err = s.err) : Inv t :=
  ⟨hm, hr ▸ hs.notResetting, by rw [hr, he]; exact hs.errIffHalted⟩

/-- Bus accesses and register updates keep the invariant. -/
theorem Inv.trail (hs : Inv s) (h : Trail s t) : Inv t := hs.of_same_run (h.wf hs.memory) h.run h.err

/-- The NMI entry keeps the invariant: clearing the latch is no link of a trail, what stands before and after it is one. -/
theorem Inv.nmiEntry (hs : Inv s) : Inv s.nmiEntry := by
  have hsaved : Inv (s.saveAndMask s.pc false) := hs.trail (Trail.refl.saveAndMask _ _)
  have hcleared : Inv ((s.saveAndMask s.pc false).setNmi false) := hsaved.of_same_run hsaved.memory rfl rfl
  exact hcleared.trail ((Trail.refl.jumpThrough _).finish _ _)

theorem Inv.irqEntry (hs : Inv s) : Inv s.irqEntry :=
  hs.trail (((Trail.refl.saveAndMask _ _).jumpThrough _).finish _ _)

/-- The fatal decode error sets run state and error record together (10_state.md R44 (c)). -/
theorem Inv.decodeError (hs : Inv s) (op : Byte) (pc : Addr) : Inv (s.decodeError op pc) where
  memory := hs.memory
  notResetting := by simp [State.decodeError]
  errIffHalted := by simp [State.decodeError]

/-- `Reset()` leaves a running core with an empty error record, whatever the run state before. -/
theorem Inv.doReset (hs : Inv s) : Inv s.doReset where
  memory := (Trail.refl.jumpThrough resetVector |>.finish resetCycles 2).wf hs.memory
  notResetting := by simp [State.doReset]
  errIffHalted := by simp [State.doReset]

/-- Every step keeps the invariant. -/
theorem Inv.step (hs : Inv s) (h : Machine.step s = .next t) : Inv t := by
  obtain ⟨-, ⟨-, rfl⟩ | ⟨-, -, -, rfl⟩ | ⟨-, -, ⟨i, n, -, -, -, hexec⟩ | ⟨-, rfl⟩⟩⟩ := step_cases h
  · exact hs.nmiEntry
  · exact hs.irqEntry
  · exact (hs.trail (Trail.refl.fetches n)).trail (trail_of_exec hexec)
  · exact (hs.trail (Trail.refl.fetches 1)).decodeError _ _

/-- A range that is accepted lies inside the address space, so the memory after it is canonical. -/
theorem Inv.writeRange (hs : Inv s) {addr : Nat} {bytes : List Byte} (h : s.writeRange addr bytes = some t) : Inv t := by
  unfold State.writeRange at h
  split at h
  · next hfits =>
    cases h
    exact hs.of_same_run (Memory.writeAll_wf hs.memory hfits) rfl rfl
  · cases h

/-- Every operation of the core or of the host keeps the invariant. -/
theorem Inv.operation (hs : Inv s) (o : Operation s t) : Inv t := by
  cases o with
  | step _ h => exact hs.step h
  | reset => exact hs.doReset
  | assertNMI | assertIRQ | clearIRQ => exact hs.of_same_run hs.memory rfl rfl
  | hostRead a => exact hs.of_same_run (State.busRead_wf s a hs.memory) (s.busRead_run a) (s.busRead_err a)
  | hostWrite a v => exact hs.of_same_run (State.busWrite_wf s a v hs.memory) (s.busWrite_run a v) (s.busWrite_err a v)
  | writeRange _ _ _ h => exact hs.writeRange h

end Invariant

/-- Settles O48, by induction on the operations made: each keeps the invariant. -/
theorem reachableStatesHaveTheInvariant : Obligations.ReachableStatesHaveTheInvariant := by
  intro s t hs h
  induction h with
  | refl => exact hs
  | tail t u _ o ih => exact ih.operation o

end Sys2Proof
end

section
/-!
PROOFS. The family of 10_state.md: the invariant of every step and of the reset state (R43, R44), what never changes in a
session (R42, R55), the writers of each flag and register (R21 to R34), the masked IRQ line (R29), BRK and RTI (R220, R221), and
session construction (R263).
-/

namespace Sys2Proof

open Sys2Proof.Machine Sys2Proof.Claims

/-! ## The invariant and the reset state -/

/-- Settles O46: an interrupt entry, an instruction and the fatal decode error each keep the invariant (`Inv.step`). -/
theorem stepKeepsTheInvariant : Obligations.StepKeepsTheInvariant := fun _ _ hs h => hs.step h

/-- Settles O47: the memory of the reset state lists nothing, and the core runs with an empty error record. -/
theorem resetStateHasTheInvariant : Obligations.ResetStateHasTheInvariant where
  memory := Memory.nil_wf
  notResetting := by decide
  errIffHalted := by decide

/-- Settles O43, by evaluating `State.reset`; its `PC` is the word of two vector bytes that no one has written. -/
theorem resetStateValues : Obligations.ResetStateValues :=
  ⟨rfl, rfl, fun _ => rfl, rfl, rfl, rfl, rfl, rfl, rfl⟩

/-! ## Variant and memory map -/

section VariantAndMap

variable {s t : State}

/-- A step never changes the variant or the map: on its trails nothing does, and what stands between them (the NMI latch,
run state and error record) is neither. -/
theorem step_keeps_variant_and_map (h : Machine.step s = .next t) : t.variant = s.variant ∧ t.regions = s.regions := by
  obtain ⟨-, ⟨-, rfl⟩ | ⟨-, -, -, rfl⟩ | ⟨-, -, ⟨i, n, -, -, -, hexec⟩ | ⟨-, rfl⟩⟩⟩ := step_cases h
  · simp [State.nmiEntry]
  · simp [State.irqEntry]
  · have htrail := trail_of_exec hexec
    have hfetch : Trail s (s.afterFetches n) := Trail.refl.fetches n
    exact ⟨htrail.variant.trans hfetch.variant, htrail.regions.trans hfetch.regions⟩
  · simp [State.decodeError, State.afterFetches]

/-- Neither does any other operation of the core or of the host. -/
theorem operation_keeps_variant_and_map (o : Operation s t) : t.variant = s.variant ∧ t.regions = s.regions := by
  cases o with
  | step _ h => exact step_keeps_variant_and_map h
  | reset => simp [State.doReset]
  | assertNMI | assertIRQ | clearIRQ => exact ⟨rfl, rfl⟩
  | hostRead a => exact ⟨s.busRead_variant a, s.busRead_regions a⟩
  | hostWrite a v => exact ⟨s.busWrite_variant a v, s.busWrite_regions a v⟩
  | writeRange _ addr bytes h =>
    unfold State.writeRange at h
    split at h
    · cases h; exact ⟨rfl, rfl⟩
    · cases h

end VariantAndMap

/-- Settles O49, by induction on the operations made. -/
theorem variantAndMapNeverChange : Obligations.VariantAndMapNeverChange := by
  intro s t h
  induction h with
  | refl => exact ⟨rfl, rfl⟩
  | tail t u _ o ih =>
    obtain ⟨hvariant, hregions⟩ := operation_keeps_variant_and_map o
    exact ⟨hvariant.trans ih.1, hregions.trans ih.2⟩

/-! ## What each flag computation leaves alone -/

namespace Machine.Flags

variable (p : Flags) (a m v : Byte)

@[simp] theorem setNZ_c : (p.setNZ v).c = p.c := rfl
@[simp] theorem setNZ_i : (p.setNZ v).i = p.i := rfl
@[simp] theorem setNZ_d : (p.setNZ v).d = p.d := rfl
@[simp] theorem setNZ_v : (p.setNZ v).v = p.v := rfl

@[simp] theorem compare_i : (p.compare a m).i = p.i := rfl
@[simp] theorem compare_d : (p.compare a m).d = p.d := rfl
@[simp] theorem compare_v : (p.compare a m).v = p.v := rfl

@[simp] theorem bitTest_c : (p.bitTest a m).c = p.c := rfl
@[simp] theorem bitTest_i : (p.bitTest a m).i = p.i := rfl
@[simp] theorem bitTest_d : (p.bitTest a m).d = p.d := rfl

@[simp] theorem testZ_c : (p.testZ a m).c = p.c := rfl
@[simp] theorem testZ_i : (p.testZ a m).i = p.i := rfl
@[simp] theorem testZ_d : (p.testZ a m).d = p.d := rfl
@[simp] theorem testZ_v : (p.testZ a m).v = p.v := rfl
@[simp] theorem testZ_n : (p.testZ a m).n = p.n := rfl

@[simp] theorem ofAlu_i (u : Alu) : (p.ofAlu u).i = p.i := rfl
@[simp] theorem ofAlu_d (u : Alu) : (p.ofAlu u).d = p.d := rfl

@[simp] theorem masked_c (k : Variant) : (p.masked k).c = p.c := rfl
@[simp] theorem masked_z (k : Variant) : (p.masked k).z = p.z := rfl
@[simp] theorem masked_v (k : Variant) : (p.masked k).v = p.v := rfl
@[simp] theorem masked_n (k : Variant) : (p.masked k).n = p.n := rfl
@[simp] theorem masked_nmos_d : (p.masked .nmos).d = p.d := rfl

end Machine.Flags

/-! ## The writers of each flag and of each register -/

/-- Settles O52, by what each family of instructions makes of the flags. -/
theorem flagsHaveOnlyTheirWriters : Obligations.FlagsHaveOnlyTheirWriters := by
  intro i s t h
  cases i
  -- `SetNZ` of the byte loaded, moved, counted or computed
  case ldaImm | ldaZp | ldaZpx | ldaAbs | ldaAbsx | ldaAbsy | ldaIndx | ldaIndy | ldaIzp | ldxImm | ldxZp | ldxZpy |
    ldxAbs | ldxAbsy | ldyImm | ldyZp | ldyZpx | ldyAbs | ldyAbsx | tax | tay | txa | tya | tsx | inx | iny | dex | dey |
    pla | plx | ply | andImm | andZp | andZpx | andAbs | andAbsx | andAbsy | andIndx | andIndy | andIzp | oraImm | oraZp |
    oraZpx | oraAbs | oraAbsx | oraAbsy | oraIndx | oraIndy | oraIzp | eorImm | eorZp | eorZpx | eorAbs | eorAbsx |
    eorAbsy | eorIndx | eorIndy | eorIzp =>
    cases h; simp [mnemonic]
  -- `SetNZ` of the byte written back
  case incAcc | incZp | incZpx | incAbs | incAbsx | decAcc | decZp | decZpx | decAbs | decAbsx =>
    cases h; simp [mnemonic, incByte, decByte]
  -- the adder's `C`, `V`, `N`, `Z`
  case adcImm | adcZp | adcZpx | adcAbs | adcAbsx | adcAbsy | adcIndx | adcIndy | adcIzp | sbcImm | sbcZp | sbcZpx |
    sbcAbs | sbcAbsx | sbcAbsy | sbcIndx | sbcIndy | sbcIzp =>
    cases h; simp [mnemonic]
  -- `Compare`: `C`, `Z`, `N`
  case cmpImm | cmpZp | cmpZpx | cmpAbs | cmpAbsx | cmpAbsy | cmpIndx | cmpIndy | cmpIzp | cpxImm | cpxZp | cpxAbs |
    cpyImm | cpyZp | cpyAbs =>
    cases h; simp [mnemonic]
  -- `Z`, and of a memory operand `N` and `V`
  case bitImm | bitZp | bitZpx | bitAbs | bitAbsx =>
    cases h; simp [mnemonic]
  -- the bit shifted out as `C`, then `SetNZ`
  case aslAcc | aslZp | aslZpx | aslAbs | aslAbsx | lsrAcc | lsrZp | lsrZpx | lsrAbs | lsrAbsx | rolAcc | rolZp |
    rolZpx | rolAbs | rolAbsx | rorAcc | rorZp | rorZpx | rorAbs | rorAbsx =>
    cases h; simp [mnemonic, aslByte, lsrByte, rolByte, rorByte]
  -- `Z` alone
  case trbZp | trbAbs | tsbZp | tsbAbs =>
    cases h; simp [mnemonic, trbByte, tsbByte]
  -- one flag each
  case clc | sec | cli | sei | cld | sed | clv =>
    cases h; simp [mnemonic]
  -- all six flags: these two are listed as writers of each
  case plp | rti =>
    simp [mnemonic]
  -- `I`, and on CMOS `D` (48_cmos_extensions.md R249)
  case brk =>
    cases h; simp +contextual [mnemonic, State.brkEntry]
  -- no flag
  case staZp | staZpx | staAbs | staAbsx | staAbsy | staIndx | staIndy | staIzp | stxZp | stxZpy | stxAbs | styZp |
    styZpx | styAbs | stzZp | stzZpx | stzAbs | stzAbsx | txs | pha | php | phx | phy | jmpAbs | jmpInd | jmpIax | jsr |
    rts | bcc | bcs | beq | bmi | bne | bpl | bvc | bvs | bra | nop =>
    cases h; simp

/-- Settles O54, by which registers each family of instructions writes. -/
theorem stackPointerHasOnlyItsWriters : Obligations.StackPointerHasOnlyItsWriters := by
  intro i s t h
  cases i
  -- `A`, from an operand or an index register
  case ldaImm | ldaZp | ldaZpx | ldaAbs | ldaAbsx | ldaAbsy | ldaIndx | ldaIndy | ldaIzp | txa | tya | andImm | andZp |
    andZpx | andAbs | andAbsx | andAbsy | andIndx | andIndy | andIzp | oraImm | oraZp | oraZpx | oraAbs | oraAbsx |
    oraAbsy | oraIndx | oraIndy | oraIzp | eorImm | eorZp | eorZpx | eorAbs | eorAbsx | eorAbsy | eorIndx | eorIndy |
    eorIzp | adcImm | adcZp | adcZpx | adcAbs | adcAbsx | adcAbsy | adcIndx | adcIndy | adcIzp | sbcImm | sbcZp |
    sbcZpx | sbcAbs | sbcAbsx | sbcAbsy | sbcIndx | sbcIndy | sbcIzp =>
    cases h; simp [mnemonic]
  -- `A`, in the accumulator form
  case incAcc | incZp | incZpx | incAbs | incAbsx | decAcc | decZp | decZpx | decAbs | decAbsx | aslAcc | aslZp |
    aslZpx | aslAbs | aslAbsx | lsrAcc | lsrZp | lsrZpx | lsrAbs | lsrAbsx | rolAcc | rolZp | rolZpx | rolAbs |
    rolAbsx | rorAcc | rorZp | rorZpx | rorAbs | rorAbsx =>
    cases h; simp [mnemonic]
  -- `X`
  case ldxImm | ldxZp | ldxZpy | ldxAbs | ldxAbsy | tax | tsx | inx | dex =>
    cases h; simp [mnemonic]
  -- `Y`
  case ldyImm | ldyZp | ldyZpx | ldyAbs | ldyAbsx | tay | iny | dey =>
    cases h; simp [mnemonic]
  -- `S`, and of a pull the register it loads
  case txs | pha | php | phx | phy | pla | plx | ply | plp =>
    cases h; simp [mnemonic]
  -- `PC`, and of a call or return `S`
  case jmpAbs | jmpInd | jmpIax | bcc | bcs | beq | bmi | bne | bpl | bvc | bvs | bra | jsr | rts =>
    cases h; simp [mnemonic]
  case brk =>
    cases h; simp [mnemonic, State.brkEntry]
  case rti =>
    cases h; simp [mnemonic, State.exceptionReturn]
  -- no register
  case staZp | staZpx | staAbs | staAbsx | staAbsy | staIndx | staIndy | staIzp | stxZp | stxZpy | stxAbs | styZp |
    styZpx | styAbs | stzZp | stzZpx | stzAbs | stzAbsx | cmpImm | cmpZp | cmpZpx | cmpAbs | cmpAbsx | cmpAbsy |
    cmpIndx | cmpIndy | cmpIzp | cpxImm | cpxZp | cpxAbs | cpyImm | cpyZp | cpyAbs | bitImm | bitZp | bitZpx | bitAbs |
    bitAbsx | trbZp | trbAbs | tsbZp | tsbAbs | clc | sec | cli | sei | cld | sed | clv | nop =>
    cases h; simp

/-! ## The statements' spelling of slots, bytes and flags -/

namespace Claims

theorem stackSlot_eq_stackAddr (sp : Byte) : stackSlot sp = State.stackAddr sp := by
  apply BitVec.eq_of_toNat_eq
  have := sp.isLt
  rw [stackAddr_toNat, stackSlot, BitVec.toNat_ofNat]
  omega

/-- The status byte put together bit by bit is the sum of its bits' weights: seven bits decide it. -/
theorem statusImage_eq_image (p : Flags) (b : Bool) : statusImage p b = p.image b := by
  obtain ⟨c, z, i, d, v, n⟩ := p
  revert c z i d v n b
  decide

theorem maskedFlags_eq_masked (s : State) : maskedFlags s = s.p.masked s.variant := by
  unfold maskedFlags
  cases s.variant <;> rfl

theorem ofNat_div_eq_hiByte (a : Addr) : BitVec.ofNat 8 (a.toNat / 256) = hiByte a := by
  apply BitVec.eq_of_toNat_eq
  have := a.isLt
  rw [hiByte_toNat, BitVec.toNat_ofNat]
  omega

theorem ofNat_eq_loByte (a : Addr) : BitVec.ofNat 8 a.toNat = loByte a := by
  apply BitVec.eq_of_toNat_eq
  rw [loByte_toNat, BitVec.toNat_ofNat]

theorem mkAddr_toNat_eq_mod (l h : Byte) : (mkAddr l h).toNat = (l.toNat + 256 * h.toNat + 0) % 65536 := by
  have := l.isLt
  have := h.isLt
  rw [mkAddr_toNat]
  omega

end Claims

/-! ## What an exception entry saves, and where it jumps -/

namespace Machine.State

variable {s : State} {ret vector : Addr} {b : Bool}

theorem push_mem_same (hw : s.mem.wf) (v : Byte) (h : regionAt s.regions (stackAddr s.sp) = .ram) :
    (s.push v).mem.read (stackAddr s.sp).toNat = v :=
  writeByte_mem_same s hw _ v h

theorem push_mem_other (v : Byte) (hp : PlainAt s (stackAddr s.sp)) {n : Nat} (hn : n ≠ (stackAddr s.sp).toNat) :
    (s.push v).mem.read n = s.mem.read n :=
  writeByte_mem_other s _ v hp n hn

/-- The slot of the push after a push, and of the push after a word's, is a device's or not as it was before. -/
theorem plainAt_push_slot {v : Byte} (h : PlainAt s (stackAddr (s.sp - 1))) :
    PlainAt (s.push v) (stackAddr (s.push v).sp) := by
  rw [push_sp]
  exact plainAt_of_regions h (push_regions s v)

theorem plainAt_pushWord_slot {w : Addr} (h : PlainAt s (stackAddr (s.sp - 2))) :
    PlainAt (s.pushWord w) (stackAddr (s.pushWord w).sp) := by
  rw [pushWord_sp, sub_sub]
  exact plainAt_of_regions h (pushWord_regions s w)

/-- The three writes of an exception entry (60_exceptions.md R269). -/
theorem saveAndMask_log : (s.saveAndMask ret b).log =
    .write (stackAddr (s.sp - 2)) (s.p.image b) :: .write (stackAddr (s.sp - 1)) (loByte ret) ::
      .write (stackAddr s.sp) (hiByte ret) :: s.log := by
  simp [saveAndMask, push_log, pushWord_log, sub_sub]

theorem saveAndMask_mem : (s.saveAndMask ret b).mem = ((s.pushWord ret).push (s.p.image b)).mem := rfl

section Plain

variable (h0 : PlainAt s (stackAddr s.sp)) (h1 : PlainAt s (stackAddr (s.sp - 1))) (h2 : PlainAt s (stackAddr (s.sp - 2)))
include h0 h1 h2

/-- Where no slot is a device's, saving keeps the latches, and every byte outside the three slots. -/
theorem saveAndMask_quiet : (s.saveAndMask ret b).nmiPending = s.nmiPending ∧ (s.saveAndMask ret b).irqLine = s.irqLine ∧
    ∀ n, n ≠ (stackAddr s.sp).toNat → n ≠ (stackAddr (s.sp - 1)).toNat → n ≠ (stackAddr (s.sp - 2)).toNat →
      (s.saveAndMask ret b).mem.read n = s.mem.read n := by
  obtain ⟨hnmi, hirq, -, hmem⟩ := (Trail.refl.saveAndMask ret b : Trail s _).quiet [_, _, _] saveAndMask_log
    (by simpa [Access.addr] using ⟨h2, h1, h0⟩)
  refine ⟨hnmi, hirq, fun n hn0 hn1 hn2 => hmem n fun a v h => ?_⟩
  simp only [List.mem_cons, Access.write.injEq, List.not_mem_nil, or_false] at h
  obtain ⟨rfl, -⟩ | ⟨rfl, -⟩ | ⟨rfl, -⟩ := h <;> assumption

theorem saveAndMask_clock_plain : (s.saveAndMask ret b).clock = s.clock + 3 := by
  rw [saveAndMask, setP_clock, push_clock_plain _ _ (plainAt_pushWord_slot h2), pushWord,
    push_clock_plain _ _ (plainAt_push_slot h1), push_clock_plain _ _ h0]

end Plain

/-- The high byte of the saved address stays in its slot while the two later bytes are pushed below it. -/
theorem saveAndMask_mem_high (h1 : PlainAt s (stackAddr (s.sp - 1))) (h2 : PlainAt s (stackAddr (s.sp - 2)))
    (hw : s.mem.wf) (hr : regionAt s.regions (stackAddr s.sp) = .ram) :
    (s.saveAndMask ret b).mem.read (stackAddr s.sp).toNat = hiByte ret := by
  have hne1 : (stackAddr s.sp).toNat ≠ (stackAddr (s.push (hiByte ret)).sp).toNat := by
    rw [push_sp]; exact stackAddr_ne (by bv_omega)
  have hne2 : (stackAddr s.sp).toNat ≠ (stackAddr (s.pushWord ret).sp).toNat := by
    rw [pushWord_sp]; exact stackAddr_ne (by bv_omega)
  rw [saveAndMask_mem, push_mem_other _ (plainAt_pushWord_slot h2) hne2, pushWord,
    push_mem_other _ (plainAt_push_slot h1) hne1, push_mem_same hw _ hr]

theorem saveAndMask_mem_low (h2 : PlainAt s (stackAddr (s.sp - 2))) (hw : s.mem.wf)
    (hr : regionAt s.regions (stackAddr (s.sp - 1)) = .ram) :
    (s.saveAndMask ret b).mem.read (stackAddr (s.sp - 1)).toNat = loByte ret := by
  have hne : (stackAddr (s.sp - 1)).toNat ≠ (stackAddr (s.pushWord ret).sp).toNat := by
    rw [pushWord_sp]; exact stackAddr_ne (by bv_omega)
  have hsame := push_mem_same ((Trail.refl.push (hiByte ret)).wf hw) (loByte ret) (by rwa [push_sp, push_regions])
  rw [push_sp] at hsame
  rw [saveAndMask_mem, push_mem_other _ (plainAt_pushWord_slot h2) hne, pushWord, hsame]

theorem saveAndMask_mem_status (hw : s.mem.wf) (hr : regionAt s.regions (stackAddr (s.sp - 2)) = .ram) :
    (s.saveAndMask ret b).mem.read (stackAddr (s.sp - 2)).toNat = s.p.image b := by
  have hsp : (s.pushWord ret).sp = s.sp - 2 := by simp [sub_sub]
  have hsame := push_mem_same ((Trail.refl.pushWord ret).wf hw) (s.p.image b) (by rwa [hsp, pushWord_regions])
  rwa [hsp] at hsame

/-- Jumping through a vector reads it and writes nothing. -/
theorem jumpThrough_log : (s.jumpThrough vector).log =
    .read (vector + 1) ((s.afterRead vector).readByte (vector + 1)) :: .read vector (s.readByte vector) :: s.log := by
  rw [jumpThrough, setPc_log, afterWord, afterPair_log]

/-- Where neither vector byte is a device's, jumping through the vector keeps the latches and all of memory. -/
theorem jumpThrough_quiet (hl : PlainAt s vector) (hh : PlainAt s (vector + 1)) :
    (s.jumpThrough vector).nmiPending = s.nmiPending ∧ (s.jumpThrough vector).irqLine = s.irqLine ∧
      ∀ n, (s.jumpThrough vector).mem.read n = s.mem.read n := by
  obtain ⟨hnmi, hirq, -, hmem⟩ := (Trail.refl.jumpThrough vector : Trail s _).quiet [_, _] jumpThrough_log
    (by simpa [Access.addr] using ⟨hh, hl⟩)
  exact ⟨hnmi, hirq, fun n => hmem n (by simp)⟩

theorem jumpThrough_clock_plain (hl : PlainAt s vector) (hh : PlainAt s (vector + 1)) :
    (s.jumpThrough vector).clock = s.clock + 2 :=
  afterPair_clock_plain s _ _ hl hh

end Machine.State

/-! ## The entry BRK makes -/

section Entry

variable {s : State} {ret vector : Addr} {b nmi : Bool} {total accesses : Nat}

/-- `PC` loaded with the pair read at `lo` and `hi`, from a state `u` whose memory there is that of `s` where no device is
touched. -/
theorem pcFrom_pair {u : State} {lo hi : Addr} {touched : List Addr} (h : NoDevice s touched → PlainAt u lo ∧ PlainAt u hi ∧
    u.mem.read lo.toNat = s.mem.read lo.toNat ∧ u.mem.read hi.toNat = s.mem.read hi.toNat) :
    PcFrom s ((u.afterPair lo hi).setPc (u.readPair lo hi)) lo hi 0 touched u.log := by
  refine ⟨u.readByte lo, (u.afterRead lo).readByte hi, State.afterPair_log .., mkAddr_toNat_eq_mod .., fun hd => ?_⟩
  obtain ⟨hl, hh, hlo, hhi⟩ := h hd
  rw [State.readByte_plain _ _ hl, State.readByte_plain _ _ (State.plainAt_of_regions hh (by simp)),
    State.afterRead_mem _ _ hl]
  exact ⟨hlo, hhi⟩

theorem pcFrom_jumpThrough {u : State} {touched : List Addr} (h : NoDevice s touched → PlainAt u vector ∧
    PlainAt u (vector + 1) ∧ u.mem.read vector.toNat = s.mem.read vector.toNat ∧
    u.mem.read (vector + 1).toNat = s.mem.read (vector + 1).toNat) :
    PcFrom s ((u.jumpThrough vector).finish total accesses) vector (vector + 1) 0 touched u.log :=
  pcFrom_pair h

/-- The addresses an entry touches, one by one. -/
theorem noDevice_entryTouches : NoDevice s (entryTouches s vector) ↔
    PlainAt s (State.stackAddr s.sp) ∧ PlainAt s (State.stackAddr (s.sp - 1)) ∧ PlainAt s (State.stackAddr (s.sp - 2)) ∧
      PlainAt s vector ∧ PlainAt s (vector + 1) := by
  simp [NoDevice, entryTouches, stackSlot_eq_stackAddr]

/-- The three saved bytes, then the jump through a vector above page 1, are an entry as 60_exceptions.md R269 describes it,
whatever happens to the NMI latch in between. -/
theorem entersHandler_of_saveAndMask (hv : 512 ≤ vector.toNat) (hv' : 512 ≤ (vector + 1).toNat) :
    EntersHandler s ((((s.saveAndMask ret b).setNmi nmi).jumpThrough vector).finish total accesses) ret b vector := by
  have hmem (hd : NoDevice s (entryTouches s vector)) (n : Nat) :
      ((((s.saveAndMask ret b).setNmi nmi).jumpThrough vector).finish total accesses).mem.read n =
        (s.saveAndMask ret b).mem.read n := by
    obtain ⟨-, -, -, hl, hh⟩ := noDevice_entryTouches.1 hd
    obtain ⟨-, -, hjump⟩ := State.jumpThrough_quiet (s := (s.saveAndMask ret b).setNmi nmi)
      (State.plainAt_of_regions hl (by simp)) (State.plainAt_of_regions hh (by simp))
    exact hjump n
  have hother (hd : NoDevice s (entryTouches s vector)) (n : Nat)
      (hn : ∀ k ∈ [0#8, 1#8, 2#8], n ≠ (stackSlot (s.sp - k)).toNat) :
      (s.saveAndMask ret b).mem.read n = s.mem.read n := by
    obtain ⟨h0, h1, h2, -, -⟩ := noDevice_entryTouches.1 hd
    simp only [List.mem_cons, List.not_mem_nil, or_false, forall_eq_or_imp, forall_eq, stackSlot_eq_stackAddr,
      BitVec.sub_zero] at hn
    obtain ⟨hn0, hn1, hn2⟩ := hn
    obtain ⟨-, -, hsave⟩ := State.saveAndMask_quiet (ret := ret) (b := b) h0 h1 h2
    exact hsave n hn0 hn1 hn2
  constructor
  case regs => simp [regsOf, maskedFlags_eq_masked, sub_sub]
  case run | err | variant | regions => simp
  case target =>
    rw [stackSlot_eq_stackAddr, stackSlot_eq_stackAddr, stackSlot_eq_stackAddr, statusImage_eq_image,
      ofNat_div_eq_hiByte, ofNat_eq_loByte, ← State.saveAndMask_log, ← State.setNmi_log _ nmi]
    refine pcFrom_jumpThrough fun hd => ?_
    obtain ⟨-, -, -, hl, hh⟩ := noDevice_entryTouches.1 hd
    refine ⟨State.plainAt_of_regions hl (by simp), State.plainAt_of_regions hh (by simp), ?_, ?_⟩
    · exact hother hd _ fun k _ => by rw [stackSlot_eq_stackAddr, stackAddr_toNat]; omega
    · exact hother hd _ fun k _ => by rw [stackSlot_eq_stackAddr, stackAddr_toNat]; omega
  case high =>
    intro hd hw hr
    obtain ⟨h0, h1, h2, -, -⟩ := noDevice_entryTouches.1 hd
    rw [stackSlot_eq_stackAddr] at hr ⊢
    rw [hmem hd, State.saveAndMask_mem_high h1 h2 hw hr, ofNat_div_eq_hiByte]
  case low =>
    intro hd hw hr
    obtain ⟨h0, h1, h2, -, -⟩ := noDevice_entryTouches.1 hd
    rw [stackSlot_eq_stackAddr] at hr ⊢
    rw [hmem hd, State.saveAndMask_mem_low h2 hw hr, ofNat_eq_loByte]
  case status =>
    intro hd hw hr
    rw [stackSlot_eq_stackAddr] at hr ⊢
    rw [hmem hd, State.saveAndMask_mem_status hw hr, statusImage_eq_image]
  case memory => exact fun hd n hn => (hmem hd n).trans (hother hd n hn)

end Entry

/-- Settles O32: `BRK` is an entry through 0xFFFE that saves `PC + 1`, and leaves the NMI latch to the accesses. -/
theorem brkEntersTheHandler : Obligations.BrkEntersTheHandler := by
  intro s
  refine ⟨s.brkEntry, rfl, entersHandler_of_saveAndMask (nmi := (s.saveAndMask (s.pc + 1) true).nmiPending)
    (by decide) (by decide), fun hd => ?_⟩
  obtain ⟨h0, h1, h2, hl, hh⟩ := noDevice_entryTouches.1 hd
  obtain ⟨hnmi, hirq, -⟩ := State.saveAndMask_quiet (ret := s.pc + 1) (b := true) h0 h1 h2
  have hl' : PlainAt (s.saveAndMask (s.pc + 1) true) irqVector := State.plainAt_of_regions hl (by simp)
  have hh' : PlainAt (s.saveAndMask (s.pc + 1) true) (irqVector + 1) := State.plainAt_of_regions hh (by simp)
  obtain ⟨jnmi, jirq, -⟩ := State.jumpThrough_quiet hl' hh'
  refine ⟨jnmi.trans hnmi, jirq.trans hirq, ?_⟩
  rw [State.brkEntry, State.finish_clock, State.jumpThrough_clock_plain hl' hh', State.saveAndMask_clock_plain h0 h1 h2]
  rfl

/-! ## The return RTI makes -/

namespace Machine.State

variable {s : State}

/-- A pull from plain memory writes nothing. -/
theorem afterPull_mem_plain (h : PlainAt s (stackAddr (s.sp + 1))) : s.afterPull.mem = s.mem := by
  rw [afterPull, afterRead_mem _ _ (plainAt_of_regions h (setSp_regions s _)), setSp_mem]

/-- The state in which a return pulls `PC`: the status is pulled, and the flags are loaded from it (47_system.md R221). -/
def afterStatusPull (s : State) : State := s.afterPull.setP (Flags.ofByte s.pulled)

theorem exceptionReturn_eq : s.exceptionReturn = s.afterStatusPull.afterPullWord.setPc s.afterStatusPull.pulledWord := rfl

/-- The three reads of a return. -/
theorem exceptionReturn_log : s.exceptionReturn.log =
    .read (stackAddr (s.sp + 3)) s.afterStatusPull.afterPull.pulled ::
      .read (stackAddr (s.sp + 2)) s.afterStatusPull.pulled :: .read (stackAddr (s.sp + 1)) s.pulled :: s.log := by
  simp [exceptionReturn_eq, afterStatusPull, afterPullWord, afterPull_log, add_assoc]

/-- The slots of the second and the third pull are a device's or not as they were before the return. -/
theorem plainAt_second_slot (h : PlainAt s (stackAddr (s.sp + 2))) :
    PlainAt s.afterStatusPull (stackAddr (s.afterStatusPull.sp + 1)) := by
  rw [afterStatusPull, setP_sp, afterPull_sp, add_assoc]
  exact plainAt_of_regions h (by simp)

theorem plainAt_third_slot (h : PlainAt s (stackAddr (s.sp + 3))) :
    PlainAt s.afterStatusPull.afterPull (stackAddr (s.afterStatusPull.afterPull.sp + 1)) := by
  rw [afterPull_sp, afterStatusPull, setP_sp, afterPull_sp, add_assoc, add_assoc]
  exact plainAt_of_regions h (by simp)

theorem exceptionReturn_trail : Trail s s.exceptionReturn := (Trail.refl.pull.setP _).pullWord.setPc _

/-- Where no slot is a device's, a return keeps the latches, the device replies and all of memory. -/
theorem exceptionReturn_quiet (h1 : PlainAt s (stackAddr (s.sp + 1))) (h2 : PlainAt s (stackAddr (s.sp + 2)))
    (h3 : PlainAt s (stackAddr (s.sp + 3))) :
    s.exceptionReturn.nmiPending = s.nmiPending ∧ s.exceptionReturn.irqLine = s.irqLine ∧
      s.exceptionReturn.inputs = s.inputs ∧ ∀ n, s.exceptionReturn.mem.read n = s.mem.read n := by
  obtain ⟨hnmi, hirq, hinputs, hmem⟩ := exceptionReturn_trail.quiet [_, _, _] exceptionReturn_log
    (by simpa [Access.addr] using ⟨h3, h2, h1⟩)
  exact ⟨hnmi, hirq, hinputs, fun n => hmem n (by simp)⟩

/-- Where no slot is a device's, a return pulls the bytes memory holds, a cycle each. -/
theorem exceptionReturn_plain (h1 : PlainAt s (stackAddr (s.sp + 1))) (h2 : PlainAt s (stackAddr (s.sp + 2)))
    (h3 : PlainAt s (stackAddr (s.sp + 3))) :
    s.afterStatusPull.pulled = s.mem.read (stackAddr (s.sp + 2)).toNat ∧
      s.afterStatusPull.afterPull.pulled = s.mem.read (stackAddr (s.sp + 3)).toNat ∧
      s.exceptionReturn.clock = s.clock + 3 := by
  have h2' := plainAt_second_slot h2
  have h3' := plainAt_third_slot h3
  have hsp : s.afterStatusPull.sp = s.sp + 1 := by simp [afterStatusPull]
  have hmem : s.afterStatusPull.mem = s.mem := by rw [afterStatusPull, setP_mem, afterPull_mem_plain h1]
  refine ⟨?_, ?_, ?_⟩
  · rw [pulled_plain _ h2', hmem, hsp, add_assoc]; rfl
  · rw [pulled_plain _ h3', afterPull_mem_plain h2', hmem, afterPull_sp, hsp, add_assoc, add_assoc]; rfl
  · rw [exceptionReturn_eq, setPc_clock, afterPullWord, afterPull_clock_plain _ h3', afterPull_clock_plain _ h2',
      afterStatusPull, setP_clock, afterPull_clock_plain _ h1]

end Machine.State

/-- Settles O33: `RTI` makes three pulls, which write nothing, and loads the flags and `PC` from them. -/
theorem rtiRestoresFlagsAndPc : Obligations.RtiRestoresFlagsAndPc := by
  intro s
  refine ⟨s.exceptionReturn.finish 6 4, s.pulled, rfl, ?_⟩
  simp only [stackSlot_eq_stackAddr]
  have htrail : Trail s (s.exceptionReturn.finish 6 4) := State.exceptionReturn_trail.finish _ _
  have hplain (hd : NoDevice s [State.stackAddr (s.sp + 1), State.stackAddr (s.sp + 2), State.stackAddr (s.sp + 3)]) :
      PlainAt s (State.stackAddr (s.sp + 1)) ∧ PlainAt s (State.stackAddr (s.sp + 2)) ∧
        PlainAt s (State.stackAddr (s.sp + 3)) := by simpa [NoDevice] using hd
  refine ⟨?_, ⟨s.afterStatusPull.pulled, s.afterStatusPull.afterPull.pulled, State.exceptionReturn_log,
    mkAddr_toNat_eq_mod .., fun hd => ?_⟩, fun hd => ?_⟩
  · constructor
    case regs => simp [regsOf, State.exceptionReturn, add_assoc, flagsOfByte, Flags.ofByte]
    case run => exact htrail.run
    case err => exact htrail.err
    case variant => exact htrail.variant
    case regions => exact htrail.regions
    case latches =>
      intro hd
      obtain ⟨h1, h2, h3⟩ := hplain hd
      obtain ⟨hnmi, hirq, hinputs, -⟩ := State.exceptionReturn_quiet h1 h2 h3
      exact ⟨hnmi, hirq, hinputs⟩
    case memory =>
      intro hd n _
      obtain ⟨h1, h2, h3⟩ := hplain hd
      obtain ⟨-, -, -, hmem⟩ := State.exceptionReturn_quiet h1 h2 h3
      exact hmem n
  · obtain ⟨h1, h2, h3⟩ := hplain hd
    obtain ⟨hl, hh, -⟩ := State.exceptionReturn_plain h1 h2 h3
    exact ⟨hl, hh⟩
  · obtain ⟨h1, h2, h3⟩ := hplain hd
    obtain ⟨-, -, hclock⟩ := State.exceptionReturn_plain h1 h2 h3
    refine ⟨State.pulled_plain _ h1, ?_⟩
    rw [State.finish_clock, hclock]
    rfl

/-! ## The IRQ line in an instruction -/

section IrqLine

variable {s t : State} (hp : AllPlain s) (b : Bool)

namespace Machine.State

/-- A byte read does not depend on the IRQ line. -/
@[simp] theorem readByte_setIrq (s : State) (a : Addr) : (s.setIrq b).readByte a = s.readByte a := rfl

include hp

theorem afterRead_setIrq (a : Addr) : (s.setIrq b).afterRead a = (s.afterRead a).setIrq b := by
  rw [afterRead_plain s a (hp a), afterRead_plain (s.setIrq b) a (hp a)]
  rfl

theorem writeByte_setIrq (a : Addr) (v : Byte) : (s.setIrq b).writeByte a v = (s.writeByte a v).setIrq b := by
  cases hr : regionAt s.regions a with
  | ram => rw [writeByte_ram s a v hr, writeByte_ram (s.setIrq b) a v hr]; rfl
  | rom => rw [writeByte_rom s a v hr, writeByte_rom (s.setIrq b) a v hr]; rfl
  | device id => exact absurd hr (hp a id)

theorem readPair_setIrq (lo hi : Addr) : (s.setIrq b).readPair lo hi = s.readPair lo hi := by
  rw [readPair, afterRead_setIrq hp, readByte_setIrq, readByte_setIrq, ← readPair]

theorem afterPair_setIrq (lo hi : Addr) : (s.setIrq b).afterPair lo hi = (s.afterPair lo hi).setIrq b := by
  rw [afterPair, afterRead_setIrq hp, afterRead_setIrq ((Trail.refl.read _ lo).allPlain hp), ← afterPair]

theorem afterFetch_setIrq : (s.setIrq b).afterFetch = s.afterFetch.setIrq b := by
  rw [afterFetch, afterRead_setIrq hp]
  rfl

theorem push_setIrq (v : Byte) : (s.setIrq b).push v = (s.push v).setIrq b := by
  rw [push, writeByte_setIrq hp]
  rfl

theorem pushWord_setIrq (w : Addr) : (s.setIrq b).pushWord w = (s.pushWord w).setIrq b := by
  rw [pushWord, push_setIrq hp, push_setIrq ((Trail.refl.push _).allPlain hp), ← pushWord]

theorem afterPull_setIrq : (s.setIrq b).afterPull = s.afterPull.setIrq b :=
  afterRead_setIrq (s := s.setSp (s.sp + 1)) hp b _

theorem pulledWord_setIrq : (s.setIrq b).pulledWord = s.pulledWord := by
  rw [pulledWord, afterPull_setIrq hp]
  rfl

theorem afterPullWord_setIrq : (s.setIrq b).afterPullWord = s.afterPullWord.setIrq b := by
  rw [afterPullWord, afterPull_setIrq hp, afterPull_setIrq (Trail.refl.pull.allPlain hp), ← afterPullWord]

theorem saveAndMask_setIrq (ret : Addr) (k : Bool) : (s.setIrq b).saveAndMask ret k = (s.saveAndMask ret k).setIrq b := by
  rw [saveAndMask, pushWord_setIrq hp, push_setIrq ((Trail.refl.pushWord ret).allPlain hp)]
  rfl

theorem jumpThrough_setIrq (a : Addr) : (s.setIrq b).jumpThrough a = (s.jumpThrough a).setIrq b := by
  rw [jumpThrough, readWord, readPair_setIrq hp, afterWord, afterPair_setIrq hp]
  rfl

theorem brkEntry_setIrq : (s.setIrq b).brkEntry = s.brkEntry.setIrq b := by
  rw [brkEntry, saveAndMask_setIrq hp, jumpThrough_setIrq ((Trail.refl.saveAndMask _ _).allPlain hp)]
  rfl

theorem exceptionReturn_setIrq : (s.setIrq b).exceptionReturn = s.exceptionReturn.setIrq b := by
  have hp' : AllPlain (s.afterPull.setP (Flags.ofByte s.pulled)) := (Trail.refl.pull.setP _).allPlain hp
  have h : (s.setIrq b).exceptionReturn =
      (((s.afterPull.setP (Flags.ofByte s.pulled)).setIrq b).afterPullWord).setPc
        (((s.afterPull.setP (Flags.ofByte s.pulled)).setIrq b).pulledWord) := by
    rw [exceptionReturn, afterPull_setIrq hp]
    rfl
  rw [h, afterPullWord_setIrq hp', pulledWord_setIrq hp']
  rfl

end Machine.State

namespace Machine

include hp

theorem MemMode.ea_setIrq (m : MemMode) : m.ea (s.setIrq b) = m.ea s := by
  cases m
  case indx | indy | izp => simp only [MemMode.ea, State.readWordZp, State.readPair_setIrq hp, State.setIrq_x, State.setIrq_y]
  all_goals rfl

theorem MemMode.crossed_setIrq (m : MemMode) : m.crossed (s.setIrq b) = m.crossed s := by
  cases m
  case indy => simp only [MemMode.crossed, State.readWordZp, State.readPair_setIrq hp, State.setIrq_y]
  all_goals rfl

theorem MemMode.after_setIrq (m : MemMode) : m.after (s.setIrq b) = (m.after s).setIrq b := by
  cases m
  case indx | indy | izp => exact State.afterPair_setIrq hp b _ _
  all_goals rfl

theorem Src.value_setIrq (r : Src) : r.value (s.setIrq b) = r.value s := by
  cases r with
  | imm v => rfl
  | mem m => rw [Src.value, MemMode.after_setIrq hp, MemMode.ea_setIrq hp, State.readByte_setIrq, ← Src.value]

theorem Src.extra_setIrq (r : Src) : r.extra (s.setIrq b) = r.extra s := by
  cases r with
  | imm v => rfl
  | mem m => rw [Src.extra, MemMode.crossed_setIrq hp, ← Src.extra]

theorem Src.after_setIrq (r : Src) : r.after (s.setIrq b) = (r.after s).setIrq b := by
  cases r with
  | imm v => rfl
  | mem m =>
    rw [Src.after, MemMode.after_setIrq hp, MemMode.ea_setIrq hp,
      State.afterRead_setIrq ((Trail.refl.memMode m).allPlain hp), ← Src.after]

theorem Dst.value_setIrq (d : Dst) : d.value (s.setIrq b) = d.value s := by
  cases d with
  | acc => rfl
  | mem m => exact Src.value_setIrq hp b (.mem m)

theorem Dst.update_setIrq (d : Dst) (u : Rmw) : d.update (s.setIrq b) u = (d.update s u).setIrq b := by
  cases d with
  | acc => rfl
  | mem m =>
    have hp' : AllPlain (((m.after s).afterRead (m.ea s)).setP u.p) :=
      (((Trail.refl.memMode m).read _ _).setP _).allPlain hp
    rw [Dst.update, MemMode.after_setIrq hp, MemMode.ea_setIrq hp,
      State.afterRead_setIrq ((Trail.refl.memMode m).allPlain hp)]
    exact State.writeByte_setIrq hp' b _ _

theorem loadA_setIrq (r : Src) (n : Nat) : loadA r n (s.setIrq b) = (loadA r n s).setIrq b := by
  rw [loadA, Src.after_setIrq hp, Src.value_setIrq hp, Src.extra_setIrq hp]; rfl

theorem loadX_setIrq (r : Src) (n : Nat) : loadX r n (s.setIrq b) = (loadX r n s).setIrq b := by
  rw [loadX, Src.after_setIrq hp, Src.value_setIrq hp, Src.extra_setIrq hp]; rfl

theorem loadY_setIrq (r : Src) (n : Nat) : loadY r n (s.setIrq b) = (loadY r n s).setIrq b := by
  rw [loadY, Src.after_setIrq hp, Src.value_setIrq hp, Src.extra_setIrq hp]; rfl

theorem logicA_setIrq (f : Byte → Byte → Byte) (r : Src) (n : Nat) :
    logicA f r n (s.setIrq b) = (logicA f r n s).setIrq b := by
  rw [logicA, Src.after_setIrq hp, Src.value_setIrq hp, Src.extra_setIrq hp]; rfl

theorem arithA_setIrq (f : Variant → Flags → Byte → Byte → Alu) (r : Src) (n : Nat) :
    arithA f r n (s.setIrq b) = (arithA f r n s).setIrq b := by
  rw [arithA, Src.after_setIrq hp, Src.value_setIrq hp, Src.extra_setIrq hp]; rfl

theorem bitMem_setIrq (r : Src) (n : Nat) : bitMem r n (s.setIrq b) = (bitMem r n s).setIrq b := by
  rw [bitMem, Src.after_setIrq hp, Src.value_setIrq hp, Src.extra_setIrq hp]; rfl

theorem compareReg_setIrq (v : Byte) (r : Src) (n : Nat) :
    compareReg v r n (s.setIrq b) = (compareReg v r n s).setIrq b := by
  rw [compareReg, Src.after_setIrq hp, Src.value_setIrq hp, Src.extra_setIrq hp]; rfl

theorem store_setIrq (m : MemMode) (v : Byte) (n : Nat) : store m v n (s.setIrq b) = (store m v n s).setIrq b := by
  rw [store, MemMode.after_setIrq hp, MemMode.ea_setIrq hp, State.writeByte_setIrq ((Trail.refl.memMode m).allPlain hp)]
  rfl

theorem rmw_setIrq (d : Dst) (f : Flags → Byte → Rmw) (n : Nat) : rmw d f n (s.setIrq b) = (rmw d f n s).setIrq b := by
  rw [rmw, Dst.update_setIrq hp, Dst.value_setIrq hp]; rfl

omit hp in
theorem branch_setIrq (cond : Bool) (off : Byte) : branch cond off (s.setIrq b) = (branch cond off s).setIrq b := by
  cases cond <;> rfl

/-- With no device in the map no instruction depends on the IRQ line, and none changes it. -/
theorem exec_setIrq {i : Instr} (h : exec i s = .next t) : exec i (s.setIrq b) = .next (t.setIrq b) := by
  cases i
  case ldaImm | ldaZp | ldaZpx | ldaAbs | ldaAbsx | ldaAbsy | ldaIndx | ldaIndy | ldaIzp =>
    cases h; exact congrArg Host.Outcome.next (loadA_setIrq hp ..)
  case ldxImm | ldxZp | ldxZpy | ldxAbs | ldxAbsy =>
    cases h; exact congrArg Host.Outcome.next (loadX_setIrq hp ..)
  case ldyImm | ldyZp | ldyZpx | ldyAbs | ldyAbsx =>
    cases h; exact congrArg Host.Outcome.next (loadY_setIrq hp ..)
  case staZp | staZpx | staAbs | staAbsx | staAbsy | staIndx | staIndy | staIzp | stxZp | stxZpy | stxAbs | styZp |
    styZpx | styAbs | stzZp | stzZpx | stzAbs | stzAbsx =>
    cases h; exact congrArg Host.Outcome.next (store_setIrq hp ..)
  case andImm | andZp | andZpx | andAbs | andAbsx | andAbsy | andIndx | andIndy | andIzp | oraImm | oraZp | oraZpx |
    oraAbs | oraAbsx | oraAbsy | oraIndx | oraIndy | oraIzp | eorImm | eorZp | eorZpx | eorAbs | eorAbsx | eorAbsy |
    eorIndx | eorIndy | eorIzp =>
    cases h; exact congrArg Host.Outcome.next (logicA_setIrq hp ..)
  case bitZp | bitZpx | bitAbs | bitAbsx =>
    cases h; exact congrArg Host.Outcome.next (bitMem_setIrq hp ..)
  case adcImm | adcZp | adcZpx | adcAbs | adcAbsx | adcAbsy | adcIndx | adcIndy | adcIzp | sbcImm | sbcZp | sbcZpx |
    sbcAbs | sbcAbsx | sbcAbsy | sbcIndx | sbcIndy | sbcIzp =>
    cases h; exact congrArg Host.Outcome.next (arithA_setIrq hp ..)
  case cmpImm | cmpZp | cmpZpx | cmpAbs | cmpAbsx | cmpAbsy | cmpIndx | cmpIndy | cmpIzp | cpxImm | cpxZp | cpxAbs |
    cpyImm | cpyZp | cpyAbs =>
    cases h; exact congrArg Host.Outcome.next (compareReg_setIrq hp ..)
  case incAcc | incZp | incZpx | incAbs | incAbsx | decAcc | decZp | decZpx | decAbs | decAbsx | aslAcc | aslZp |
    aslZpx | aslAbs | aslAbsx | lsrAcc | lsrZp | lsrZpx | lsrAbs | lsrAbsx | rolAcc | rolZp | rolZpx | rolAbs |
    rolAbsx | rorAcc | rorZp | rorZpx | rorAbs | rorAbsx | trbZp | trbAbs | tsbZp | tsbAbs =>
    cases h; exact congrArg Host.Outcome.next (rmw_setIrq hp ..)
  case bcc | bcs | beq | bmi | bne | bpl | bvc | bvs | bra =>
    cases h; exact congrArg Host.Outcome.next (branch_setIrq ..)
  case tax | tay | txa | tya | tsx | txs | inx | iny | dex | dey | bitImm | clc | sec | cli | sei | cld | sed | clv |
    nop | jmpAbs =>
    cases h; rfl
  case pha | php | phx | phy =>
    cases h; simp only [exec, execPha, execPhp, execPhx, execPhy, State.push_setIrq hp]; rfl
  case pla | plp | plx | ply =>
    cases h; simp only [exec, execPla, execPlp, execPlx, execPly, State.afterPull_setIrq hp]; rfl
  case jmpInd =>
    cases h
    simp only [exec, execJmpInd, afterInd, indTarget, State.afterPair_setIrq hp, State.readPair_setIrq hp]; rfl
  case jmpIax =>
    cases h
    simp only [exec, execJmpIax, afterIax, iaxTarget, State.afterWord, State.readWord, State.afterPair_setIrq hp,
      State.readPair_setIrq hp]; rfl
  case jsr => cases h; simp only [exec, execJsr, State.pushWord_setIrq hp]; rfl
  case rts => cases h; simp only [exec, execRts, State.afterPullWord_setIrq hp, State.pulledWord_setIrq hp]; rfl
  case brk => cases h; exact congrArg Host.Outcome.next (State.brkEntry_setIrq hp b)
  case rti => cases h; simp only [exec, execRti, State.exceptionReturn_setIrq hp]; rfl

/-- Nor does the instruction part of a step. -/
theorem stepInstr_setIrq (h : stepInstr s = .next t) : stepInstr (s.setIrq b) = .next (t.setIrq b) := by
  have hp1 : AllPlain s.afterFetch := Trail.refl.fetch.allPlain hp
  have hp2 : AllPlain s.afterFetch.afterFetch := Trail.refl.fetch.fetch.allPlain hp
  have hp3 : AllPlain s.afterFetch.afterFetch.afterFetch := Trail.refl.fetch.fetch.fetch.allPlain hp
  simp only [stepInstr, State.fetchInstr, State.fetchedWord, State.readByte_setIrq, State.setIrq_pc, State.setIrq_variant,
    State.afterFetch_setIrq hp, State.afterFetch_setIrq hp1, State.afterFetch_setIrq hp2] at h ⊢
  cases hl : lookupOpcode s.variant (s.readByte s.pc) with
  | none => simp only [hl] at h ⊢; cases h; rfl
  | some f =>
    cases f with
    | i1 i => simp only [hl] at h ⊢; exact exec_setIrq hp1 b h
    | i2 build => simp only [hl] at h ⊢; exact exec_setIrq hp2 b h
    | i3 build => simp only [hl] at h ⊢; exact exec_setIrq hp3 b h

end Machine

end IrqLine

/-- Settles O40: with `I = 1` a step is its instruction part whatever the line, and that does not depend on the line. -/
theorem maskedIrqWaits : Obligations.MaskedIrqWaits := by
  intro s t hrun hnmi hmasked hp h
  have hstep (line : Bool) : Machine.step (s.setIrq line) = stepInstr (s.setIrq line) :=
    step_eq_stepInstr hrun hnmi fun _ => hmasked
  rw [hstep] at h ⊢
  exact stepInstr_setIrq (s := s.setIrq false) hp true h

/-! ## Session construction -/

/-- Two windows are disjoint exactly when no address lies in both; of two that meet, the larger base does. -/
theorem regionsDisjoint_iff (r q : Region) : regionsDisjoint r q = true ↔ ∀ n, ¬ (InWindow r n ∧ InWindow q n) := by
  simp only [regionsDisjoint, Bool.or_eq_true, decide_eq_true_eq, InWindow]
  constructor
  · intro h n
    omega
  · intro h
    have := h (max r.base q.base)
    omega

theorem regionsOk_iff_pairwise (l : List Region) : regionsOk l = true ↔
    (∀ r ∈ l, r.base + r.size ≤ 65536) ∧ l.Pairwise (fun r q => regionsDisjoint r q = true) := by
  induction l with
  | nil => simp [regionsOk]
  | cons r rs ih =>
    simp only [regionsOk, Bool.and_eq_true, decide_eq_true_eq, List.all_eq_true, ih, List.mem_cons, forall_eq_or_imp,
      List.pairwise_cons]
    tauto

/-- The model's test of a map is the specification's: no window passes 0xFFFF and no two share an address. -/
theorem regionsOk_iff (l : List Region) : regionsOk l = true ↔ ¬ MapMalformed l := by
  rw [regionsOk_iff_pairwise, MapMalformed, not_or, List.pairwise_iff_getElem]
  refine and_congr (by simp) ⟨?_, ?_⟩
  · rintro h ⟨i, j, r, q, n, hij, hi, hj, hr, hq⟩
    obtain ⟨hi', rfl⟩ := List.getElem?_eq_some_iff.1 hi
    obtain ⟨hj', rfl⟩ := List.getElem?_eq_some_iff.1 hj
    exact (regionsDisjoint_iff _ _).1 (h i j hi' hj' hij) n ⟨hr, hq⟩
  · intro h i j hi hj hij
    refine (regionsDisjoint_iff _ _).2 fun n hn => h ⟨i, j, l[i], l[j], n, hij, ?_, ?_, hn⟩
    · exact List.getElem?_eq_getElem hi
    · exact List.getElem?_eq_getElem hj

theorem provides_iff (c : SessionConfig) (a : Addr) : c.provides a = true ↔ Provided c a.toNat := by
  rw [SessionConfig.provides, Provided, Bool.or_eq_true, BitVec.ofNat_toNat, BitVec.setWidth_eq]
  refine or_congr (by simp) ?_
  cases regionAt c.regions a <;> simp

/-- Construction accepts exactly the good configurations. -/
theorem ok_iff_goodConfig (c : SessionConfig) : c.ok = true ↔ GoodConfig c := by
  rw [SessionConfig.ok, GoodConfig, Bool.and_eq_true, Bool.and_eq_true, Bool.and_eq_true, regionsOk_iff, provides_iff,
    provides_iff, List.all_eq_true, and_assoc, and_assoc]
  simp only [decide_eq_true_eq]
  rfl

/-! ### The image in memory -/

/-- What a sequence of bytes leaves in a canonical memory: its own bytes at its addresses, and the others as before. -/
theorem Machine.Memory.read_writeAll {vs : List Byte} : ∀ {m : Memory} {a : Nat}, m.wf → a + vs.length ≤ 65536 → ∀ n,
    (m.writeAll a vs).read n = if a ≤ n ∧ n < a + vs.length then (vs[n - a]?).getD 0 else m.read n := by
  induction vs with
  | nil => intro m a _ _ n; simp [Memory.writeAll]
  | cons v vs ih =>
    intro m a hw ha n
    rw [List.length_cons] at ha ⊢
    rw [Memory.writeAll, ih (Memory.write_wf hw a (by omega) v) (by omega)]
    rcases Nat.lt_trichotomy n a with hlt | rfl | hgt
    · rw [if_neg (by omega), if_neg (by omega), Memory.read_write_other _ _ _ _ (by omega)]
    · rw [if_neg (by omega), if_pos (by omega), Memory.read_write_same hw.1, Nat.sub_self]
      rfl
    · have hsub : n - a = n - (a + 1) + 1 := by omega
      rw [Memory.read_write_other _ _ _ _ (by omega), hsub, List.getElem?_cons_succ]
      exact if_congr (by omega) rfl rfl

/-- The image's byte once a range is written after the others: the range's where it holds the address. -/
theorem imageByte_append (image : List (Nat × List Byte)) (w : Nat × List Byte) (n : Nat) :
    imageByte (image ++ [w]) n = if w.1 ≤ n ∧ n < w.1 + w.2.length then w.2[n - w.1]? else imageByte image n := by
  rw [imageByte, List.reverse_append, List.reverse_singleton, List.singleton_append, List.find?_cons]
  by_cases h : w.1 ≤ n ∧ n < w.1 + w.2.length
  · simp [h]
  · have hout : (decide (w.1 ≤ n) && decide (n < w.1 + w.2.length)) = false := by simpa using h
    rw [hout, if_neg h, imageByte]

/-- The image's ranges, written one after the other into empty memory, give a canonical memory that holds the image. -/
theorem image_foldl_reads (image : List (Nat × List Byte)) (h : ∀ w ∈ image, w.1 + w.2.length ≤ 65536) :
    Memory.wf (image.foldl (fun m w => m.writeAll w.1 w.2) []) ∧
      ∀ n, Memory.read (image.foldl (fun m w => m.writeAll w.1 w.2) []) n = (imageByte image n).getD 0 := by
  induction image using List.reverseRecOn with
  | nil => exact ⟨Memory.nil_wf, fun n => rfl⟩
  | append_singleton image w ih =>
    simp only [List.mem_append, List.mem_singleton, or_imp, forall_and, forall_eq] at h
    obtain ⟨hwf, hread⟩ := ih h.1
    rw [List.foldl_append, List.foldl_cons, List.foldl_nil]
    refine ⟨Memory.writeAll_wf hwf h.2, fun n => ?_⟩
    rw [Memory.read_writeAll hwf h.2, hread, imageByte_append]
    split <;> rfl

/-- Settles O60: construction tests for a good configuration, and what it makes of one is `SessionConfig.initial`. -/
theorem constructionRefusesBadConfigurations : Obligations.ConstructionRefusesBadConfigurations := by
  intro c
  refine ⟨?_, fun hbad => ?_, fun hgood => ?_⟩
  · rw [← Bool.not_eq_true, regionsOk_iff, not_not]
  · rw [SessionConfig.construct, if_neg (mt (ok_iff_goodConfig c).1 hbad)]
  · obtain ⟨hwf, hread⟩ := image_foldl_reads c.image hgood.2.1
    refine ⟨c.initial, by rw [SessionConfig.construct, if_pos ((ok_iff_goodConfig c).2 hgood)], rfl, rfl, rfl, rfl, rfl, rfl,
      rfl, rfl, hread, ⟨hwf, ?_, ?_⟩, rfl⟩
    · simp [SessionConfig.initial]
    · simp [SessionConfig.initial]

end Sys2Proof
end

section
/-!
PROOFS. The family of 20_memory.md, first part: the record of accesses agrees with memory (R63, R64, R68), what one access and
a range of bytes from the host do (R54, R60, R315), and the pointers of page 0 (R53, R111, R112, R115).
-/

namespace Sys2Proof

open Sys2Proof.Machine Sys2Proof.Claims

/-! ## The record of accesses agrees with memory -/

namespace Claims

variable {s t : State}

/-- Coherence speaks of the map, memory and the record of accesses alone. -/
theorem Coherent.of_same_bus (hc : Coherent s) (hr : t.regions = s.regions) (hm : t.mem = s.mem) (hl : t.log = s.log) :
    Coherent t := by
  simpa only [Coherent, hr, hm, hl] using hc

/-- A read of plain memory returns what memory holds, and by coherence that is the last value written. -/
theorem Coherent.afterRead (hc : Coherent s) (a : Addr) (hp : PlainAt s a) : Coherent (s.afterRead a) := by
  obtain ⟨hmem, hreads⟩ := hc
  simp only [Coherent, State.afterRead_regions, State.afterRead_mem s a hp, State.afterRead_log,
    State.readByte_plain s a hp]
  refine ⟨hmem, fun newer older b v w hlog hb hw => ?_⟩
  cases newer with
  | nil =>
    obtain ⟨⟨rfl, rfl⟩, rfl⟩ : (a = b ∧ s.mem.read a.toNat = v) ∧ s.log = older := by simpa using hlog
    exact hmem a w hb hw
  | cons x newer => exact hreads newer older b v w (List.cons.inj hlog).2 hb hw

/-- A write to RAM becomes the last one of its address, and no other address's last write or byte changes. -/
theorem Coherent.writeByte (hc : Coherent s) (hw : s.mem.wf) (a : Addr) (v : Byte) (hp : PlainAt s a) :
    Coherent (s.writeByte a v) := by
  obtain ⟨hmem, hreads⟩ := hc
  simp only [Coherent, State.writeByte_regions, State.writeByte_log]
  refine ⟨fun b u hb hu => ?_, fun newer older b u w hlog hb hlast => ?_⟩
  · by_cases hab : a = b
    · subst hab
      obtain rfl : v = u := by simpa [lastWrite] using hu
      exact State.writeByte_mem_same s hw a v hb
    · have hne : b.toNat ≠ a.toNat := fun h => hab (BitVec.eq_of_toNat_eq h.symm)
      rw [State.writeByte_mem_other s a v hp _ hne]
      exact hmem b u hb (by simpa [lastWrite, hab] using hu)
  · cases newer with
    | nil => cases hlog
    | cons x newer => exact hreads newer older b u w (List.cons.inj hlog).2 hb hlast

/-- Over a map without devices, bus accesses and register updates keep coherence. -/
theorem Coherent.trail (hc : Coherent s) (hw : s.mem.wf) (hp : AllPlain s) (h : Trail s t) : Coherent t := by
  induction h with
  | refl => exact hc
  | read t a h ih => exact ih.afterRead a (h.allPlain hp a)
  | write t a v h ih => exact ih.writeByte (h.wf hw) a v (h.allPlain hp a)
  | regs t u h k ih => exact ih.of_same_bus k.regions k.mem k.log

/-- The NMI entry keeps coherence: clearing the latch is no link of a trail, what stands before and after it is one. -/
theorem Coherent.nmiEntry (hc : Coherent s) (hw : s.mem.wf) (hp : AllPlain s) : Coherent s.nmiEntry := by
  have hsave : Trail s (s.saveAndMask s.pc false) := Trail.refl.saveAndMask _ _
  have hcleared : Coherent ((s.saveAndMask s.pc false).setNmi false) :=
    (hc.trail hw hp hsave).of_same_bus rfl rfl rfl
  exact hcleared.trail (hsave.wf hw) (hsave.allPlain hp) ((Trail.refl.jumpThrough _).finish _ _)

end Claims

/-- Settles O51: each access keeps coherence, and a step is made of accesses. -/
theorem ramIsSequentiallyConsistent : Obligations.RamIsSequentiallyConsistent := by
  intro s t hw hp hc h
  obtain ⟨-, ⟨-, rfl⟩ | ⟨-, -, -, rfl⟩ | ⟨-, -, ⟨i, n, -, -, -, hexec⟩ | ⟨-, rfl⟩⟩⟩ := step_cases h
  · exact hc.nmiEntry hw hp
  · exact hc.trail hw hp (((Trail.refl.saveAndMask _ _).jumpThrough _).finish _ _)
  · have hfetch : Trail s (s.afterFetches n) := Trail.refl.fetches n
    exact (hc.trail hw hp hfetch).trail (hfetch.wf hw) (hfetch.allPlain hp) (trail_of_exec hexec)
  · exact (hc.trail hw hp (Trail.refl.fetches 1)).of_same_bus rfl rfl rfl

/-! ## One access, and a range of bytes from the host -/

/-- Settles O5: what one read and one write of plain memory do. -/
theorem ramHoldsWhatWasWritten : Obligations.RamHoldsWhatWasWritten := by
  intro s a v hw
  refine ⟨fun hram => ?_, fun hplain => ?_, fun b hne hd => ?_⟩
  · have hp : PlainAt (s.writeByte a v) a := fun id => by simp [hram]
    rw [State.readByte_plain _ a hp, State.writeByte_mem_same s hw a v hram, State.writeByte_ram s a v hram]
    exact ⟨rfl, rfl⟩
  · have hp : PlainAt s a := by
      intro id
      obtain h | h := hplain <;> simp [h]
    exact ⟨State.readByte_plain s a hp, State.afterRead_plain s a hp⟩
  · obtain ⟨ha, hb⟩ : PlainAt s a ∧ PlainAt s b := by simpa [NoDevice] using hd
    have hne' : b.toNat ≠ a.toNat := fun h => hne (BitVec.eq_of_toNat_eq h)
    rw [State.readByte_plain _ b (State.plainAt_of_regions hb (by simp)), State.writeByte_mem_other s a v ha _ hne',
      State.readByte_plain s b hb]

/-- Settles O45, by what `Memory.writeAll` leaves at each address. -/
theorem writeRangeStoresEachByte : Obligations.WriteRangeStoresEachByte := by
  intro s addr bytes hw
  refine ⟨fun hlong => if_neg (by omega), fun hfits => ⟨_, if_pos hfits, rfl, fun k b hk => ?_, fun n hn => ?_⟩⟩
  · obtain ⟨hlt, -⟩ := List.getElem?_eq_some_iff.1 hk
    rw [Memory.read_writeAll hw hfits, if_pos (by omega), Nat.add_sub_cancel_left, hk]
    rfl
  · rw [Memory.read_writeAll hw hfits, if_neg (by omega)]

/-! ## The pointer modes -/

namespace Claims

theorem zpAt_eq_zeroPage (z : Byte) : zpAt z = State.zeroPage z := by
  apply BitVec.eq_of_toNat_eq
  have := z.isLt
  rw [zeroPage_toNat, zpAt, BitVec.toNat_ofNat]
  omega

/-- The word a pointer in page 0 holds, as the statements number it. -/
theorem readWordZp_toNat {s : State} {z : Byte} (hd : NoDevice s [zpAt z, zpAt (z + 1)]) :
    (s.readWordZp z).toNat = zpWord s z.toNat := by
  obtain ⟨hl, hh⟩ : PlainAt s (State.zeroPage z) ∧ PlainAt s (State.zeroPage (z + 1)) := by
    simpa [NoDevice, zpAt_eq_zeroPage] using hd
  rw [State.readWordZp_plain s z hl hh, mkAddr_toNat, zpWord, byteAt, byteAt, BitVec.toNat_add]
  rfl

/-- The two addresses a pointer's fetch adds to the record. -/
theorem addresses_afterWordZp (s : State) (z : Byte) :
    addresses (s.afterWordZp z) = [(z.toNat + 1) % 256, z.toNat] ++ addresses s := by
  rw [addresses, State.afterWordZp, State.afterPair_log]
  simp [addresses, Access.addr, zeroPage_toNat, BitVec.toNat_add]

end Claims

/-- Settles O8: each of the three modes reads one pointer in page 0. -/
theorem pointerModesReadZeroPage : Obligations.PointerModesReadZeroPage := by
  intro s z
  have hzx : (z + s.x).toNat = (z.toNat + s.x.toNat) % 256 := BitVec.toNat_add ..
  refine ⟨?_, ?_, rfl, rfl, fun hd => ?_, fun hd => ?_⟩
  · rw [MemMode.after, addresses_afterWordZp, hzx, Nat.mod_add_mod]
  · intro m hm
    obtain rfl | rfl : m = .indy z ∨ m = .izp z := by simpa using hm
    all_goals exact addresses_afterWordZp s z
  · rw [← hzx]
    exact readWordZp_toNat hd
  · have hizp : ((MemMode.izp z).ea s).toNat = zpWord s z.toNat := readWordZp_toNat hd
    refine ⟨hizp, ?_, ?_⟩
    · rw [← hizp]
      exact add_zext16_toNat ..
    · rw [← hizp]
      exact pagesDiffer_iff ..

end Sys2Proof
end

section
/-!
PROOFS. The family of 20_memory.md, second part: jumps and calls (R110, R116, R190 to R192) and fetching (R66, R84). Each is a
trail, and what a trail records says which latches and bytes it can have changed.
-/

namespace Sys2Proof

open Sys2Proof.Machine Sys2Proof.Claims

/-! ## The effect of a trail -/

/-- A trail has the effect its record shows: it stores where it wrote, and touches where it read or wrote. -/
theorem Claims.Effect.of_trail {s t : State} {r : Regs} {stored touched : List Addr} {new : List Access} (h : Trail s t)
    (hregs : regsOf t = r) (hlog : t.log = new ++ s.log) (htouched : ∀ x ∈ new, x.addr ∈ touched)
    (hstored : ∀ b v, Access.write b v ∈ new → b ∈ stored) : Effect s t r stored touched := by
  have hquiet (hd : NoDevice s touched) := h.quiet new hlog fun x hx => hd _ (htouched x hx)
  refine ⟨hregs, h.run, h.err, h.variant, h.regions, fun hd => ?_, fun hd n hn => ?_⟩
  · obtain ⟨hnmi, hirq, hinputs, -⟩ := hquiet hd
    exact ⟨hnmi, hirq, hinputs⟩
  · obtain ⟨-, -, -, hmem⟩ := hquiet hd
    exact hmem n fun b v hb => hn b (hstored b v hb)

/-! ## Jumps -/

section Jumps

variable {s : State}

/-- A jump through a pair of bytes reads the two, low byte first, and changes `PC` alone. -/
theorem effect_and_pcFrom_of_jump_pair (lo hi : Addr) (total accesses : Nat) :
    Effect s (((s.afterPair lo hi).setPc (s.readPair lo hi)).finish total accesses)
        { regsOf s with pc := s.readPair lo hi } [] [lo, hi] ∧
      PcFrom s (((s.afterPair lo hi).setPc (s.readPair lo hi)).finish total accesses) lo hi 0 [lo, hi] s.log := by
  refine ⟨.of_trail (new := [_, _]) (((Trail.refl.pair lo hi).setPc _).finish _ _) (by simp [regsOf])
    (State.afterPair_log s lo hi) (by simp [Access.addr]) (by simp), pcFrom_pair fun hd => ?_⟩
  obtain ⟨hl, hh⟩ : PlainAt s lo ∧ PlainAt s hi := by simpa [NoDevice] using hd
  exact ⟨hl, hh, rfl, rfl⟩

/-- The pointer's second byte on NMOS is in the page of the first (40_addressing_modes.md R110). -/
theorem indHigh_nmos (a : Addr) : indHigh .nmos a = BitVec.ofNat 16 (a.toNat / 256 * 256 + (a.toNat + 1) % 256) := by
  apply BitVec.eq_of_toNat_eq
  have hone : (1 : Byte).toNat = 1 := rfl
  have := a.isLt
  rw [indHigh, mkAddr_toNat, BitVec.toNat_add, loByte_toNat, hiByte_toNat, BitVec.toNat_ofNat, hone]
  omega

theorem indHigh_cmos (a : Addr) : indHigh .cmos a = BitVec.ofNat 16 (a.toNat + 1) := by
  apply BitVec.eq_of_toNat_eq
  rw [indHigh, BitVec.toNat_add, BitVec.toNat_ofNat]
  rfl

theorem add_zext16_eq_ofNat (a : Addr) (x : Byte) : a + zext16 x = BitVec.ofNat 16 (a.toNat + x.toNat) := by
  apply BitVec.eq_of_toNat_eq
  rw [add_zext16_toNat, BitVec.toNat_ofNat]

end Jumps

/-- Settles O26: `JMP a` loads its operand, the two others jump through a pair of bytes. -/
theorem jumpsLoadPc : Obligations.JumpsLoadPc := by
  intro a s hi b
  have hhi : indHigh s.variant a = hi := by
    cases hv : s.variant <;> simp only [hi, hv]
    · exact indHigh_nmos a
    · exact indHigh_cmos a
  have hb : a + zext16 s.x = b := add_zext16_eq_ofNat a s.x
  refine ⟨⟨_, rfl, ?_, rfl⟩, ⟨_, rfl, ?_⟩, ⟨_, rfl, ?_⟩⟩
  · exact .of_trail (new := []) ((Trail.refl.setPc a).finish 3 3) rfl rfl (by simp) (by simp)
  · rw [afterInd, indTarget, hhi]
    exact effect_and_pcFrom_of_jump_pair a hi _ _
  · rw [afterIax, iaxTarget, hb]
    exact effect_and_pcFrom_of_jump_pair b (b + 1) _ _

/-! ## Calls and returns -/

namespace Machine.State

variable {s : State} {w : Addr}

/-- A pushed word's high byte stays in its slot while the low byte is pushed below it. -/
theorem pushWord_mem_high (h1 : PlainAt s (stackAddr (s.sp - 1))) (hw : s.mem.wf)
    (hr : regionAt s.regions (stackAddr s.sp) = .ram) :
    (s.pushWord w).mem.read (stackAddr s.sp).toNat = hiByte w := by
  have hne : (stackAddr s.sp).toNat ≠ (stackAddr (s.push (hiByte w)).sp).toNat := by
    rw [push_sp]; exact stackAddr_ne (by bv_omega)
  rw [pushWord, push_mem_other _ (plainAt_push_slot h1) hne, push_mem_same hw _ hr]

theorem pushWord_mem_low (hw : s.mem.wf) (hr : regionAt s.regions (stackAddr (s.sp - 1)) = .ram) :
    (s.pushWord w).mem.read (stackAddr (s.sp - 1)).toNat = loByte w := by
  have hsame := push_mem_same ((Trail.refl.push (hiByte w)).wf hw) (loByte w) (by rwa [push_sp, push_regions])
  rwa [push_sp] at hsame

/-- The word pulled off page 1 is the one pushed there, whatever else happened to the registers in between. -/
theorem pulledWord_eq_of_pushWord {u : State} (hw : s.mem.wf) (hram : ∀ sp, regionAt s.regions (stackAddr sp) = .ram)
    (hsp : u.sp = (s.pushWord w).sp) (hmem : u.mem = (s.pushWord w).mem) (hregions : u.regions = s.regions) :
    u.pulledWord = w := by
  have hplain (sp : Byte) : PlainAt s (stackAddr sp) := fun id => by simp [hram]
  have hlow : u.sp + 1 = s.sp - 1 := by rw [hsp, pushWord_sp, sub_add_cancel]
  have hhigh : u.sp + 1 + 1 = s.sp := by rw [hlow, sub_add_cancel]
  rw [pulledWord_plain u (plainAt_of_regions (hplain _) hregions) (plainAt_of_regions (hplain _) hregions), hhigh, hlow,
    hmem, pushWord_mem_low hw (hram _), pushWord_mem_high (hplain _) hw (hram _), mkAddr_loByte_hiByte]

end Machine.State

/-- Settles O27: `JSR` pushes the word `PC - 1` and jumps. -/
theorem jsrPushesReturnMinusOne : Obligations.JsrPushesReturnMinusOne := by
  intro a s
  refine ⟨((s.pushWord (s.pc - 1)).setPc a).finish 6 5, rfl, ?_⟩
  simp only [stackSlot_eq_stackAddr, ofNat_div_eq_hiByte, ofNat_eq_loByte]
  have hlog := State.pushWord_log s (s.pc - 1)
  refine ⟨.of_trail (new := [_, _]) (((Trail.refl.pushWord _).setPc a).finish 6 5) (by simp [regsOf, sub_sub]) hlog
    (by simp [Access.addr]) (by simp +contextual [or_imp]), hlog, fun hd => ⟨fun hw hr => ?_, fun hw hr => ?_⟩⟩
  · obtain ⟨-, h1⟩ : PlainAt s (State.stackAddr s.sp) ∧ PlainAt s (State.stackAddr (s.sp - 1)) := by
      simpa [NoDevice] using hd
    exact State.pushWord_mem_high h1 hw hr
  · exact State.pushWord_mem_low hw hr

/-- Settles O29: `RTS` pulls the word that `JSR` pushed, `PC - 1`, and adds one. -/
theorem rtsReturnsBehindTheJsr : Obligations.RtsReturnsBehindTheJsr := by
  intro a pc s t u hw hstack hjsr hrts
  cases hjsr
  cases hrts
  have hword : (((((s.pushWord (s.pc - 1)).setPc a).finish 6 5).setPc pc).pulledWord) = s.pc - 1 :=
    State.pulledWord_eq_of_pushWord hw (fun sp => stackSlot_eq_stackAddr sp ▸ hstack sp) rfl rfl (by simp)
  refine ⟨?_, by simp⟩
  rw [State.finish_pc, State.setPc_pc, hword, sub_add_cancel]

/-! ## Fetching -/

/-- The addresses of `n` fetches from `pc`. -/
def Claims.fetchRun (pc : Addr) (n : Nat) : List Addr := (List.range n).map fun k => BitVec.ofNat 16 (pc.toNat + k)

theorem Claims.fetchRun_succ (pc : Addr) (n : Nat) : fetchRun pc (n + 1) = pc :: fetchRun (pc + 1) n := by
  have hofs (a : Addr) (k : Nat) : BitVec.ofNat 16 (a.toNat + k) = a + BitVec.ofNat 16 k := by
    rw [BitVec.ofNat_add, BitVec.ofNat_toNat, BitVec.setWidth_eq]
  simp only [fetchRun, hofs]
  simp [List.range_succ_eq_map, Function.comp_def, BitVec.ofNat_add, add_assoc, add_comm (1#16)]

namespace Machine.State

theorem fetchedBytes_length (n : Nat) : ∀ s : State, (s.fetchedBytes n).length = n := by
  induction n with
  | zero => exact fun s => rfl
  | succ n ih => exact fun s => congrArg (· + 1) (ih s.afterFetch)

/-- `n` fetches advance `PC` by `n` and keep every other register. -/
theorem regsOf_afterFetches (n : Nat) : ∀ s : State,
    regsOf (s.afterFetches n) = { regsOf s with pc := s.pc + BitVec.ofNat 16 n } := by
  induction n with
  | zero => intro s; simp [afterFetches, regsOf]
  | succ n ih =>
    intro s
    rw [afterFetches, ih]
    simp [regsOf, BitVec.ofNat_add, add_assoc, add_comm (1#16)]

/-- `n` fetches make `n` reads, newest first in the record. -/
theorem afterFetches_log (n : Nat) : ∀ s : State, (s.afterFetches n).log =
    (List.zipWith Access.read (fetchRun s.pc n) (s.fetchedBytes n)).reverse ++ s.log := by
  induction n with
  | zero => exact fun s => rfl
  | succ n ih =>
    intro s
    rw [afterFetches, ih, afterFetch_log, afterFetch_pc, fetchRun_succ]
    simp [fetchedBytes]

/-- Over plain memory `n` fetches return the bytes stored there, a cycle each. -/
theorem afterFetches_plain (n : Nat) : ∀ s : State, NoDevice s (fetchRun s.pc n) →
    s.fetchedBytes n = (fetchRun s.pc n).map (fun b => s.mem.read b.toNat) ∧ (s.afterFetches n).clock = s.clock + n := by
  induction n with
  | zero => exact fun s _ => ⟨rfl, rfl⟩
  | succ n ih =>
    intro s hd
    rw [fetchRun_succ] at hd ⊢
    obtain ⟨hpc, hrest⟩ := List.forall_mem_cons.1 hd
    have hmem : s.afterFetch.mem = s.mem := by rw [afterFetch, setPc_mem, afterRead_mem _ _ hpc]
    obtain ⟨hbytes, hclock⟩ := ih s.afterFetch fun b hb =>
      plainAt_of_regions (hrest b (by simpa using hb)) (afterFetch_regions s)
    rw [afterFetch_pc, hmem] at hbytes
    refine ⟨?_, ?_⟩
    · rw [fetchedBytes, hbytes, readByte_plain _ _ hpc, List.map_cons]
    · rw [afterFetches, hclock, afterFetch_clock_plain _ hpc]
      omega

end Machine.State

/-- Settles O36, by what `n` fetches record. -/
theorem fetchReadsConsecutiveBytes : Obligations.FetchReadsConsecutiveBytes := by
  intro s n run
  have hpc : (s.afterFetches n).pc = s.pc + BitVec.ofNat 16 n := congrArg Regs.pc (State.regsOf_afterFetches n s)
  have hreads : ∀ x ∈ (List.zipWith Access.read run (s.fetchedBytes n)).reverse, ∃ b ∈ run, ∃ v, x = .read b v := by
    intro x hx
    rw [List.mem_reverse, ← List.map_uncurry_zip_eq_zipWith] at hx
    obtain ⟨⟨b, v⟩, hbv, rfl⟩ := List.mem_map.1 hx
    exact ⟨b, (List.of_mem_zip hbv).1, v, rfl⟩
  refine ⟨State.fetchedBytes_length n s, State.afterFetches_log n s, ?_, ?_, State.afterFetches_plain n s⟩
  · rw [hpc, BitVec.toNat_add, BitVec.toNat_ofNat, Nat.add_mod_mod]
  · refine .of_trail (Trail.refl.fetches n) (hpc ▸ State.regsOf_afterFetches n s) (State.afterFetches_log n s) ?_ ?_
    · intro x hx
      obtain ⟨b, hb, v, rfl⟩ := hreads x hx
      exact hb
    · intro b v hx
      obtain ⟨b', -, v', h⟩ := hreads _ hx
      cases h

end Sys2Proof
end

section
/-!
PROOFS. The family of 20_memory.md, third part: which template each row of the instruction tables runs, what its accesses are
(R60, R118, R120, R124 to R126, R170, R237), and which instructions change memory (R60, R62, R118).
-/

namespace Sys2Proof

open Sys2Proof.Machine Sys2Proof.Claims

/-! ## The template of each row

Each row of a table runs its instruction's template on the row's operand, with the cycles of its class (70_reset_and_hazards.md
R309, 48_cmos_extensions.md R250). -/

section Rows

variable {v z : Byte} {a : Addr} (s : State)

theorem exec_ldaForms : ∀ f ∈ ldaForms v z a, exec f.1 s = .next (loadA f.2 ((readBase f.2).getD 0) s) := by
  intro f hf
  fin_cases hf <;> rfl

theorem exec_ldxForms : ∀ f ∈ ldxForms v z a, exec f.1 s = .next (loadX f.2 ((readBase f.2).getD 0) s) := by
  intro f hf
  fin_cases hf <;> rfl

theorem exec_ldyForms : ∀ f ∈ ldyForms v z a, exec f.1 s = .next (loadY f.2 ((readBase f.2).getD 0) s) := by
  intro f hf
  fin_cases hf <;> rfl

theorem exec_andForms : ∀ f ∈ andForms v z a, exec f.1 s = .next (logicA (· &&& ·) f.2 ((readBase f.2).getD 0) s) := by
  intro f hf
  fin_cases hf <;> rfl

theorem exec_oraForms : ∀ f ∈ oraForms v z a, exec f.1 s = .next (logicA (· ||| ·) f.2 ((readBase f.2).getD 0) s) := by
  intro f hf
  fin_cases hf <;> rfl

theorem exec_eorForms : ∀ f ∈ eorForms v z a, exec f.1 s = .next (logicA (· ^^^ ·) f.2 ((readBase f.2).getD 0) s) := by
  intro f hf
  fin_cases hf <;> rfl

theorem exec_bitForms : ∀ f ∈ bitForms z a, exec f.1 s = .next (bitMem f.2 ((readBase f.2).getD 0) s) := by
  intro f hf
  fin_cases hf <;> rfl

theorem exec_adcForms : ∀ f ∈ adcForms v z a, exec f.1 s = .next (arithA adcResult f.2 ((readBase f.2).getD 0) s) := by
  intro f hf
  fin_cases hf <;> rfl

theorem exec_sbcForms : ∀ f ∈ sbcForms v z a, exec f.1 s = .next (arithA sbcResult f.2 ((readBase f.2).getD 0) s) := by
  intro f hf
  fin_cases hf <;> rfl

theorem exec_cmpForms : ∀ f ∈ cmpForms v z a, exec f.1 s = .next (compareReg s.a f.2 ((readBase f.2).getD 0) s) := by
  intro f hf
  fin_cases hf <;> rfl

theorem exec_cpxForms : ∀ f ∈ cpxForms v z a, exec f.1 s = .next (compareReg s.x f.2 ((readBase f.2).getD 0) s) := by
  intro f hf
  fin_cases hf <;> rfl

theorem exec_cpyForms : ∀ f ∈ cpyForms v z a, exec f.1 s = .next (compareReg s.y f.2 ((readBase f.2).getD 0) s) := by
  intro f hf
  fin_cases hf <;> rfl

theorem exec_staForms : ∀ f ∈ staForms z a, exec f.1 s = .next (store f.2 s.a ((writeBase f.2).getD 0) s) := by
  intro f hf
  fin_cases hf <;> rfl

theorem exec_stxForms : ∀ f ∈ stxForms z a, exec f.1 s = .next (store f.2 s.x ((writeBase f.2).getD 0) s) := by
  intro f hf
  fin_cases hf <;> rfl

theorem exec_styForms : ∀ f ∈ styForms z a, exec f.1 s = .next (store f.2 s.y ((writeBase f.2).getD 0) s) := by
  intro f hf
  fin_cases hf <;> rfl

theorem exec_stzForms : ∀ f ∈ stzForms z a, exec f.1 s = .next (store f.2 0 ((writeBase f.2).getD 0) s) := by
  intro f hf
  fin_cases hf <;> rfl

theorem exec_incForms : ∀ f ∈ incForms z a, exec f.1 s = .next (rmw f.2 incByte ((rmwBase f s).getD 0) s) := by
  intro f hf
  fin_cases hf <;> rfl

theorem exec_decForms : ∀ f ∈ decForms z a, exec f.1 s = .next (rmw f.2 decByte ((rmwBase f s).getD 0) s) := by
  intro f hf
  fin_cases hf <;> rfl

theorem exec_trbForms : ∀ f ∈ trbForms z a,
    exec f.1 s = .next (rmw f.2 (fun p m => trbByte p s.a m) ((rmwBase f s).getD 0) s) := by
  intro f hf
  fin_cases hf <;> rfl

theorem exec_tsbForms : ∀ f ∈ tsbForms z a,
    exec f.1 s = .next (rmw f.2 (fun p m => tsbByte p s.a m) ((rmwBase f s).getD 0) s) := by
  intro f hf
  fin_cases hf <;> rfl

theorem exec_aslForms : ∀ f ∈ aslForms z a, exec f.1 s = .next (rmw f.2 aslByte ((rmwBase f s).getD 0) s) := by
  intro f hf
  obtain ⟨variant⟩ := s -- the cycles of the `absx` row depend on it
  cases variant <;> fin_cases hf <;> rfl

theorem exec_lsrForms : ∀ f ∈ lsrForms z a, exec f.1 s = .next (rmw f.2 lsrByte ((rmwBase f s).getD 0) s) := by
  intro f hf
  obtain ⟨variant⟩ := s -- the cycles of the `absx` row depend on it
  cases variant <;> fin_cases hf <;> rfl

theorem exec_rolForms : ∀ f ∈ rolForms z a, exec f.1 s = .next (rmw f.2 rolByte ((rmwBase f s).getD 0) s) := by
  intro f hf
  obtain ⟨variant⟩ := s -- the cycles of the `absx` row depend on it
  cases variant <;> fin_cases hf <;> rfl

theorem exec_rorForms : ∀ f ∈ rorForms z a, exec f.1 s = .next (rmw f.2 rorByte ((rmwBase f s).getD 0) s) := by
  intro f hf
  obtain ⟨variant⟩ := s -- the cycles of the `absx` row depend on it
  cases variant <;> fin_cases hf <;> rfl

end Rows

/-! ## The accesses of each row -/

section Accesses

variable {v z : Byte} {a : Addr} (s : State)

/-- A read instruction's record is that of loading its operand. -/
theorem exec_read_log : ∀ f ∈ readForms v z a ++ adcForms v z a ++ sbcForms v z a,
    ∃ t, exec f.1 s = .next t ∧ t.log = (f.2.after s).log := by
  simp only [readForms, List.cons_append, List.forall_mem_cons, List.forall_mem_append, and_assoc]
  exact ⟨⟨_, rfl, rfl⟩, fun f hf => ⟨_, exec_ldaForms s f hf, loadA_log ..⟩,
    fun f hf => ⟨_, exec_ldxForms s f hf, loadX_log ..⟩, fun f hf => ⟨_, exec_ldyForms s f hf, loadY_log ..⟩,
    fun f hf => ⟨_, exec_andForms s f hf, logicA_log ..⟩, fun f hf => ⟨_, exec_oraForms s f hf, logicA_log ..⟩,
    fun f hf => ⟨_, exec_eorForms s f hf, logicA_log ..⟩, fun f hf => ⟨_, exec_bitForms s f hf, bitMem_log ..⟩,
    fun f hf => ⟨_, exec_cmpForms s f hf, compareReg_log ..⟩, fun f hf => ⟨_, exec_cpxForms s f hf, compareReg_log ..⟩,
    fun f hf => ⟨_, exec_cpyForms s f hf, compareReg_log ..⟩, fun f hf => ⟨_, exec_adcForms s f hf, arithA_log ..⟩,
    fun f hf => ⟨_, exec_sbcForms s f hf, arithA_log ..⟩⟩

/-- A store's record is the pointer reads and one write. -/
theorem exec_store_log : ∀ g ∈ storeRows z a s,
    ∃ t, exec g.1.1 s = .next t ∧ t.log = .write (g.1.2.ea s) g.2 :: (g.1.2.after s).log := by
  simp only [storeRows, List.forall_mem_append, List.forall_mem_map, and_assoc]
  exact ⟨fun f hf => ⟨_, exec_staForms s f hf, store_log ..⟩, fun f hf => ⟨_, exec_stxForms s f hf, store_log ..⟩,
    fun f hf => ⟨_, exec_styForms s f hf, store_log ..⟩, fun f hf => ⟨_, exec_stzForms s f hf, store_log ..⟩⟩

/-- The record a read-modify-write leaves that makes `value m` of its operand `m`. -/
def rmwRecord (d : Dst) (value : Byte → Byte) : List Access :=
  match d with
  | .acc => s.log
  | .mem m => .write (m.ea s) (value (d.value s)) :: .read (m.ea s) (d.value s) :: (m.after s).log

theorem rmw_log (d : Dst) {f : Flags → Byte → Rmw} {value : Byte → Byte} (n : Nat) (h : ∀ m, (f s.p m).r = value m) :
    (rmw d f n s).log = rmwRecord s d value := by
  cases d with
  | acc => rfl
  | mem m => rw [rmw_mem_log, h, rmwRecord]

/-! What the shifts and rotates make of a byte, as numbers (44_incdec_shift.md R177 to R180); the two rotates are checked for
every byte and carry. -/

theorem aslByte_r (p : Flags) (m : Byte) : (aslByte p m).r = BitVec.ofNat 8 (2 * m.toNat) := by
  apply BitVec.eq_of_toNat_eq
  simp [aslByte, Nat.shiftLeft_eq, Nat.mul_comm]

theorem lsrByte_r (p : Flags) (m : Byte) : (lsrByte p m).r = BitVec.ofNat 8 (m.toNat / 2) := by
  apply BitVec.eq_of_toNat_eq
  have := m.isLt
  rw [lsrByte, BitVec.toNat_ushiftRight, Nat.shiftRight_eq_div_pow, BitVec.toNat_ofNat]
  omega

theorem rolByte_r (p : Flags) (m : Byte) : (rolByte p m).r = BitVec.ofNat 8 (2 * m.toNat + p.c.toNat) := by
  revert m
  cases h : p.c <;> simp only [rolByte, h] <;> decide

theorem rorByte_r (p : Flags) (m : Byte) : (rorByte p m).r = BitVec.ofNat 8 (m.toNat / 2 + 128 * p.c.toNat) := by
  revert m
  cases h : p.c <;> simp only [rorByte, h] <;> decide

theorem exec_rmw_log : ∀ g ∈ rmwRows z a s, ∃ t, exec g.1.1 s = .next t ∧ t.log = rmwRecord s g.1.2 g.2 := by
  simp only [rmwRows, List.forall_mem_append, List.forall_mem_map, and_assoc]
  exact ⟨fun f hf => ⟨_, exec_incForms s f hf, rmw_log s f.2 _ fun _ => rfl⟩,
    fun f hf => ⟨_, exec_decForms s f hf, rmw_log s f.2 _ fun _ => rfl⟩,
    fun f hf => ⟨_, exec_aslForms s f hf, rmw_log s f.2 _ (aslByte_r s.p)⟩,
    fun f hf => ⟨_, exec_lsrForms s f hf, rmw_log s f.2 _ (lsrByte_r s.p)⟩,
    fun f hf => ⟨_, exec_rolForms s f hf, rmw_log s f.2 _ (rolByte_r s.p)⟩,
    fun f hf => ⟨_, exec_rorForms s f hf, rmw_log s f.2 _ (rorByte_r s.p)⟩,
    fun f hf => ⟨_, exec_trbForms s f hf, rmw_log s f.2 _ fun _ => rfl⟩,
    fun f hf => ⟨_, exec_tsbForms s f hf, rmw_log s f.2 _ fun _ => rfl⟩⟩

end Accesses

/-- Settles O56: a row's record is its template's. -/
theorem accessesAreExactlyTheListedOnes : Obligations.AccessesAreExactlyTheListedOnes := by
  intro v z a s
  refine ⟨fun f hf => ?_, exec_store_log s, fun g hg => ?_⟩
  · obtain ⟨t, hexec, hlog⟩ := exec_read_log s f hf
    refine ⟨t, hexec, hlog.trans ?_⟩
    cases f.2 with
    | imm v => rfl
    | mem m => exact Src.after_log_mem m s
  · obtain ⟨t, hexec, hlog⟩ := exec_rmw_log s g hg
    refine ⟨t, hexec, hlog.trans ?_⟩
    cases g.1.2 <;> rfl

/-! ## Which instructions change memory -/

namespace Machine.State

section Pushes

variable {s : State} {n : Nat} (hp : AllPlain s) (hn : n / 256 ≠ 1)
include hp hn

/-- A push reaches page 1 alone (10_state.md R24). -/
theorem push_mem_off_page1 (v : Byte) : (s.push v).mem.read n = s.mem.read n := by
  refine push_mem_other v (hp _) ?_
  have := s.sp.isLt
  rw [stackAddr_toNat]
  omega

theorem pushWord_mem_off_page1 (w : Addr) : (s.pushWord w).mem.read n = s.mem.read n := by
  rw [pushWord, push_mem_off_page1 ((Trail.refl.push _).allPlain hp) hn, push_mem_off_page1 hp hn]

theorem brkEntry_mem_off_page1 : s.brkEntry.mem.read n = s.mem.read n := by
  have hpush : AllPlain (s.pushWord (s.pc + 1)) := (Trail.refl.pushWord _).allPlain hp
  rw [brkEntry, finish_mem, jumpThrough_mem _ ((Trail.refl.saveAndMask _ _).allPlain hp),
    saveAndMask_mem, push_mem_off_page1 hpush hn, pushWord_mem_off_page1 hp hn]

end Pushes

/-- With no device in the map a return keeps memory. -/
theorem exceptionReturn_mem {s : State} (hp : AllPlain s) : s.exceptionReturn.mem = s.mem := by
  have hp' : AllPlain s.afterStatusPull := (Trail.refl.pull.setP _).allPlain hp
  rw [exceptionReturn_eq, setPc_mem, afterPullWord_mem _ hp', afterStatusPull, setP_mem,
    afterPull_mem _ hp]

end Machine.State

/-- Settles O55, by what each family of instructions stores. -/
theorem memoryChangesOnlyInStores : Obligations.MemoryChangesOnlyInStores := by
  intro i s t n hp h
  have keeps {P Q R : Prop} (hmem : t.mem = s.mem) :
      (P → t.mem.read n = s.mem.read n) ∧ (Q → R → t.mem.read n = s.mem.read n) := by simp [hmem]
  cases i
  -- one operand read
  case ldaImm | ldaZp | ldaZpx | ldaAbs | ldaAbsx | ldaAbsy | ldaIndx | ldaIndy | ldaIzp =>
    cases h; exact keeps (loadA_mem _ _ _ hp)
  case ldxImm | ldxZp | ldxZpy | ldxAbs | ldxAbsy =>
    cases h; exact keeps (loadX_mem _ _ _ hp)
  case ldyImm | ldyZp | ldyZpx | ldyAbs | ldyAbsx =>
    cases h; exact keeps (loadY_mem _ _ _ hp)
  case andImm | andZp | andZpx | andAbs | andAbsx | andAbsy | andIndx | andIndy | andIzp | oraImm | oraZp | oraZpx |
    oraAbs | oraAbsx | oraAbsy | oraIndx | oraIndy | oraIzp | eorImm | eorZp | eorZpx | eorAbs | eorAbsx | eorAbsy |
    eorIndx | eorIndy | eorIzp =>
    cases h; exact keeps (logicA_mem _ _ _ _ hp)
  case bitZp | bitZpx | bitAbs | bitAbsx =>
    cases h; exact keeps (bitMem_mem _ _ _ hp)
  case adcImm | adcZp | adcZpx | adcAbs | adcAbsx | adcAbsy | adcIndx | adcIndy | adcIzp | sbcImm | sbcZp | sbcZpx |
    sbcAbs | sbcAbsx | sbcAbsy | sbcIndx | sbcIndy | sbcIzp =>
    cases h; exact keeps (arithA_mem _ _ _ _ hp)
  case cmpImm | cmpZp | cmpZpx | cmpAbs | cmpAbsx | cmpAbsy | cmpIndx | cmpIndy | cmpIzp | cpxImm | cpxZp | cpxAbs |
    cpyImm | cpyZp | cpyAbs =>
    cases h; exact keeps (compareReg_mem _ _ _ _ hp)
  -- pulls and pointer reads
  case pla | plp | plx | ply =>
    cases h; exact keeps (State.afterPull_mem _ hp)
  case rts =>
    cases h; exact keeps (State.afterPullWord_mem _ hp)
  case rti =>
    cases h; exact keeps (State.exceptionReturn_mem hp)
  case jmpInd =>
    cases h; exact keeps (afterInd_mem _ _ hp)
  case jmpIax =>
    cases h; exact keeps (afterIax_mem _ _ hp)
  -- no access
  case bcc | bcs | beq | bmi | bne | bpl | bvc | bvs | bra =>
    cases h; exact keeps (branch_mem ..)
  case tax | tay | txa | tya | tsx | txs | inx | iny | dex | dey | bitImm | clc | sec | cli | sei | cld | sed | clv |
    nop | jmpAbs =>
    cases h; exact keeps rfl
  -- stores and read-modify-writes: the statement speaks of neither
  case staZp | staZpx | staAbs | staAbsx | staAbsy | staIndx | staIndy | staIzp | stxZp | stxZpy | stxAbs | styZp |
    styZpx | styAbs | stzZp | stzZpx | stzAbs | stzAbsx | incAcc | incZp | incZpx | incAbs | incAbsx | decAcc | decZp |
    decZpx | decAbs | decAbsx | aslAcc | aslZp | aslZpx | aslAbs | aslAbsx | lsrAcc | lsrZp | lsrZpx | lsrAbs |
    lsrAbsx | rolAcc | rolZp | rolZpx | rolAbs | rolAbsx | rorAcc | rorZp | rorZpx | rorAbs | rorAbsx | trbZp |
    trbAbs | tsbZp | tsbAbs =>
    simp [mnemonic]
  -- pushes
  case pha | php | phx | phy =>
    cases h; exact ⟨by simp [mnemonic], fun _ hn => State.push_mem_off_page1 hp hn _⟩
  case jsr =>
    cases h; exact ⟨by simp [mnemonic], fun _ hn => State.pushWord_mem_off_page1 hp hn _⟩
  case brk =>
    cases h; exact ⟨by simp [mnemonic], fun _ hn => State.brkEntry_mem_off_page1 hp hn⟩

end Sys2Proof
end

section
/-!
PROOFS. The family of 30_encoding.md: decoding and encoding are inverse to each other (R83, R86, R87), and the illegal
opcodes are the listed ones (R89, R90). Both directions go through the opcode table: a row's form relates an instruction to
its operand bytes, the decoder reads what the row of the opcode makes, and every instruction has its row.
-/

namespace Sys2Proof

open Sys2Proof.Claims

/-- The form makes the instruction of these operand bytes, a word's low byte first (30_encoding.md R81 to R83). -/
inductive Form.Makes : Form → List Byte → Instr → Prop
  | i1 (i : Instr) : Makes (.i1 i) [] i
  | i2 (build : Byte → Instr) (b : Byte) : Makes (.i2 build) [b] (build b)
  | i3 (build : Addr → Instr) (a : Addr) : Makes (.i3 build) [loByte a, hiByte a] (build a)

/-! ## The decoder reads what the row of the opcode makes -/

theorem decode_of_makes {variant : Variant} {op : Byte} {f : Form} {ops : List Byte} {i : Instr}
    (hlookup : lookupOpcode variant op = some f) (hmakes : f.Makes ops i) (rest : List Byte) :
    decode variant (op :: ops ++ rest) = .ok (i, rest) := by
  cases hmakes <;> simp [decode, hlookup]

theorem makes_of_decode {variant : Variant} {bytes rest : List Byte} {i : Instr}
    (h : decode variant bytes = .ok (i, rest)) :
    ∃ op ops f, bytes = op :: ops ++ rest ∧ lookupOpcode variant op = some f ∧ f.Makes ops i := by
  cases bytes with
  | nil => cases h
  | cons op tail =>
    cases hlookup : lookupOpcode variant op with
    | none => simp only [decode, hlookup] at h; cases h
    | some f =>
      refine ⟨op, ?_⟩
      cases f with
      | i1 i =>
        simp only [decode, hlookup] at h
        cases h
        exact ⟨[], _, rfl, hlookup, .i1 i⟩
      | i2 build =>
        rcases tail with _ | ⟨b, tail⟩ <;> simp only [decode, hlookup] at h <;> cases h
        exact ⟨[b], _, rfl, hlookup, .i2 build b⟩
      | i3 build =>
        rcases tail with _ | ⟨lo, _ | ⟨hi, tail⟩⟩ <;> simp only [decode, hlookup] at h <;> cases h
        exact ⟨[lo, hi], _, rfl, hlookup, by simpa using Form.Makes.i3 build (mkAddr lo hi)⟩

/-- The decoder rejects an opcode as illegal when the variant has no row for it; a short list is rejected as truncated. -/
theorem decode_illegalOpcode_iff (variant : Variant) (op : Byte) (tail : List Byte) :
    decode variant (op :: tail) = .error (.illegalOpcode op) ↔ lookupOpcode variant op = none := by
  cases hlookup : lookupOpcode variant op with
  | none => simp [decode, hlookup]
  | some f =>
    cases f with
    | i1 i => simp [decode, hlookup]
    | i2 build => rcases tail with _ | ⟨b, tail⟩ <;> simp [decode, hlookup]
    | i3 build => rcases tail with _ | ⟨lo, _ | ⟨hi, tail⟩⟩ <;> simp [decode, hlookup]

/-! ## The table's rows and the encoder -/

/-- What a row makes of operand bytes is encoded as the row's opcode and those bytes, and is CMOS only when the row is. -/
theorem encode_of_makes {r : OpcodeRow} (hr : r ∈ opcodeTable) {ops : List Byte} {i : Instr} (h : r.form.Makes ops i) :
    encode i = r.opcode :: ops ∧ i.cmosOnly = r.cmosOnly := by
  fin_cases hr <;> cases h <;> exact ⟨rfl, rfl⟩

/-- The row of an instruction's first byte makes the instruction of the bytes after it. -/
theorem exists_row (i : Instr) : ∃ op ops r,
    encode i = op :: ops ∧ opcodeTable.find? (·.opcode == op) = some r ∧ r.form.Makes ops i := by
  cases i <;> exact ⟨_, _, _, rfl, rfl, by constructor⟩ -- the form of the row found names the constructor

theorem wellFormed_eq_legalIn {r : OpcodeRow} {i : Instr} (h : i.cmosOnly = r.cmosOnly) (variant : Variant) :
    i.wellFormed variant = r.legalIn variant := by
  cases variant <;> simp [Instr.wellFormed, OpcodeRow.legalIn, h]

theorem lookupOpcode_of_find {variant : Variant} {op : Byte} {r : OpcodeRow}
    (hfind : opcodeTable.find? (·.opcode == op) = some r) (hlegal : r.legalIn variant = true) :
    lookupOpcode variant op = some r.form := by
  obtain ⟨hop, before, after, htable, hbefore⟩ := List.find?_eq_some_iff_append.1 hfind
  have hrow : opcodeTable.find? (fun r => r.opcode == op && r.legalIn variant) = some r :=
    List.find?_eq_some_iff_append.2 ⟨by simp [hop, hlegal], before, after, htable, fun r' hr' => by
      rw [Bool.not_and, hbefore r' hr', Bool.true_or]⟩
  rw [lookupOpcode, hrow, Option.map_some]

theorem row_of_lookupOpcode {variant : Variant} {op : Byte} {f : Form} (h : lookupOpcode variant op = some f) :
    ∃ r ∈ opcodeTable, r.opcode = op ∧ r.legalIn variant = true ∧ r.form = f := by
  obtain ⟨r, hfind, hform⟩ := Option.map_eq_some_iff.1 h
  have hr := List.find?_some hfind
  rw [Bool.and_eq_true, beq_iff_eq] at hr
  obtain ⟨hop, hlegal⟩ := hr
  exact ⟨r, List.mem_of_find?_eq_some hfind, hop, hlegal, hform⟩

/-- Settles O1: the decoder finds the row that makes the instruction, and reads back what it makes. -/
theorem decodeOfEncodeIsTheInstruction : Obligations.DecodeOfEncodeIsTheInstruction := by
  intro variant i rest hwf
  obtain ⟨op, ops, r, hencode, hfind, hmakes⟩ := exists_row i
  obtain ⟨-, hcmos⟩ := encode_of_makes (List.mem_of_find?_eq_some hfind) hmakes
  rw [wellFormed_eq_legalIn hcmos] at hwf
  rw [hencode]
  exact decode_of_makes (lookupOpcode_of_find hfind hwf) hmakes rest

/-- Settles O2: what the decoder reads, a row of the variant makes, and the encoder writes that row's bytes. -/
theorem decodedBytesAreTheEncoding : Obligations.DecodedBytesAreTheEncoding := by
  intro variant bytes rest i h
  obtain ⟨op, ops, f, rfl, hlookup, hmakes⟩ := makes_of_decode h
  obtain ⟨r, hr, rfl, hlegal, rfl⟩ := row_of_lookupOpcode hlookup
  obtain ⟨hencode, hcmos⟩ := encode_of_makes hr hmakes
  exact ⟨by rw [hencode], by rw [wellFormed_eq_legalIn hcmos, hlegal]⟩

/-! ## The illegal opcodes -/

/-- The opcodes of a variant's rows. -/
def legalOpcodes (variant : Variant) : List Byte :=
  (opcodeTable.filter (·.legalIn variant)).map (·.opcode)

theorem lookupOpcode_eq_none_iff (variant : Variant) (op : Byte) :
    lookupOpcode variant op = none ↔ op ∉ legalOpcodes variant := by
  simp only [lookupOpcode, legalOpcodes, Option.map_eq_none_iff, List.find?_eq_none, List.mem_map, List.mem_filter]
  grind

/-- The bytes of a list as one number: bit `n` is set when the list holds the byte `n`. -/
def byteSet (l : List Byte) : Nat := l.foldr (fun b n => 2 ^ b.toNat ||| n) 0

theorem testBit_byteSet (l : List Byte) (op : Byte) : (byteSet l).testBit op.toNat = true ↔ op ∈ l := by
  induction l with
  | nil => simp [byteSet]
  | cons b l ih =>
    have hcons : byteSet (b :: l) = 2 ^ b.toNat ||| byteSet l := rfl
    rw [hcons, Nat.testBit_or, Bool.or_eq_true, ih, Nat.testBit_two_pow, decide_eq_true_iff, BitVec.toNat_inj,
      List.mem_cons, eq_comm]

/-- Two lists whose numbers differ in each of the 256 bits are complements of each other. -/
theorem notMem_iff_of_byteSet {l l' : List Byte} (h : byteSet l ^^^ byteSet l' = 2 ^ 256 - 1) (op : Byte) :
    op ∉ l ↔ op ∈ l' := by
  have hbit : (byteSet l ^^^ byteSet l').testBit op.toNat = true := by
    rw [h, Nat.testBit_two_pow_sub_one]
    exact decide_eq_true op.isLt
  rw [Nat.testBit_xor] at hbit
  rw [← testBit_byteSet l, ← testBit_byteSet l']
  grind

/-! Each of the 256 bytes is either a row's opcode or listed as illegal. -/

theorem legal_or_listed_nmos : byteSet (legalOpcodes .nmos) ^^^ byteSet illegalNmos = 2 ^ 256 - 1 := by
  decide +kernel

theorem legal_or_listed_cmos : byteSet (legalOpcodes .cmos) ^^^ byteSet illegalCmos = 2 ^ 256 - 1 := by
  decide +kernel

/-- Settles O3: the decoder rejects the opcodes without a row. -/
theorem illegalOpcodesAreTheListedOnes : Obligations.IllegalOpcodesAreTheListedOnes := by
  intro op b c rest
  simp only [decode_illegalOpcode_iff, lookupOpcode_eq_none_iff]
  exact ⟨notMem_iff_of_byteSet legal_or_listed_nmos op, notMem_iff_of_byteSet legal_or_listed_cmos op, rfl, rfl⟩

end Sys2Proof
end

section
/-!
PROOFS. The family of 40_addressing_modes.md: effective addresses (R104 to R109), operands (R103, R118), what loads and stores
change (R121 to R126, R237), and the cycles of every row with an operand (R117, R250, R309, R310, R312).
-/

namespace Sys2Proof

open Sys2Proof.Machine Sys2Proof.Claims

/-! ## Effective addresses of the modes without a pointer -/

/-- Indexing in page 0 wraps there. -/
theorem Machine.zeroPage_add_toNat (z x : Byte) : (State.zeroPage (z + x)).toNat = (z.toNat + x.toNat) % 256 :=
  (zeroPage_toNat _).trans (BitVec.toNat_add ..)

/-- Settles O7, by the number of each kind of address: in page 0, and a word indexed. -/
theorem effectiveAddresses : Obligations.EffectiveAddresses := by
  intro s z a
  exact ⟨zeroPage_toNat z, rfl, zeroPage_add_toNat z s.x, rfl, zeroPage_add_toNat z s.y, rfl, rfl, rfl,
    add_zext16_toNat a s.x, pagesDiffer_iff .., add_zext16_toNat a s.y, pagesDiffer_iff .., by simp [MemMode.after]⟩

/-! ## What resolving and loading do -/

section Operands

variable {s : State}

/-- A pointer fetched from plain memory changes none of it, in two cycles. -/
theorem Machine.State.afterWordZp_plain {z : Byte} (hd : NoDevice s [zpAt z, zpAt (z + 1)]) :
    (s.afterWordZp z).mem = s.mem ∧ (s.afterWordZp z).clock = s.clock + 2 := by
  obtain ⟨hl, hh⟩ : PlainAt s (State.zeroPage z) ∧ PlainAt s (State.zeroPage (z + 1)) := by
    simpa [NoDevice, zpAt_eq_zeroPage] using hd
  refine ⟨?_, State.afterPair_clock_plain s _ _ hl hh⟩
  rw [State.afterWordZp, State.afterPair, State.afterRead_mem _ _ (State.plainAt_of_regions hh (by simp)),
    State.afterRead_mem _ _ hl]

theorem Machine.MemMode.after_plain {m : MemMode} (hd : NoDevice s (pointers m s)) :
    (m.after s).mem = s.mem ∧ (m.after s).clock = s.clock + (pointers m s).length := by
  cases m
  case indx | indy | izp => exact State.afterWordZp_plain hd
  case zp | zpx | zpy | abs | absx | absy => exact ⟨rfl, rfl⟩

/-- What an operand touches is its pointer's addresses and its own. -/
theorem noDevice_modeTouches {m : MemMode} :
    NoDevice s (modeTouches m s) ↔ NoDevice s (pointers m s) ∧ PlainAt s (m.ea s) := by
  simp only [NoDevice, modeTouches, List.forall_mem_append, List.forall_mem_singleton]

theorem Machine.Src.value_mem_plain {m : MemMode} (hd : NoDevice s (modeTouches m s)) :
    (Src.mem m).value s = s.mem.read (m.ea s).toNat := by
  obtain ⟨hptr, hea⟩ := noDevice_modeTouches.1 hd
  rw [Src.value, State.readByte_plain _ _ (State.plainAt_of_regions hea (by simp)), (MemMode.after_plain hptr).1]

/-- The accesses are reads of the addresses alone. -/
def Claims.ReadsOnly (new : List Access) (l : List Addr) : Prop := ∀ x ∈ new, ∃ b ∈ l, ∃ v, x = .read b v

theorem Claims.ReadsOnly.addr_mem {new : List Access} {l : List Addr} (h : ReadsOnly new l) {x : Access} (hx : x ∈ new) :
    x.addr ∈ l := by
  obtain ⟨b, hb, v, rfl⟩ := h x hx
  exact hb

theorem Claims.ReadsOnly.not_write {new : List Access} {l : List Addr} (h : ReadsOnly new l) (b : Addr) (v : Byte) :
    .write b v ∉ new := by
  intro hx
  obtain ⟨b', -, v', hread⟩ := h _ hx
  cases hread

theorem Machine.MemMode.after_reads (m : MemMode) (s : State) :
    ∃ new, (m.after s).log = new ++ s.log ∧ ReadsOnly new (pointers m s) := by
  cases m
  case indx | indy | izp =>
    exact ⟨[_, _], State.afterPair_log .., by simp [ReadsOnly, pointers, zpAt_eq_zeroPage]⟩
  case zp | zpx | zpy | abs | absx | absy => exact ⟨[], rfl, by simp [ReadsOnly]⟩

theorem Machine.Src.after_reads (src : Src) (s : State) :
    ∃ new, (src.after s).log = new ++ s.log ∧ ReadsOnly new (srcTouches src s) := by
  cases src with
  | imm v => exact ⟨[], rfl, by simp [ReadsOnly]⟩
  | mem m =>
    obtain ⟨new, hlog, hreads⟩ := MemMode.after_reads m s
    refine ⟨.read (m.ea s) ((Src.mem m).value s) :: new, by rw [Src.after_log_mem, hlog]; rfl,
      List.forall_mem_cons.2 ⟨⟨_, by simp [srcTouches, modeTouches], _, rfl⟩, fun x hx => ?_⟩⟩
    obtain ⟨b, hb, v, rfl⟩ := hreads x hx
    exact ⟨b, List.mem_append_left _ hb, v, rfl⟩

end Operands

/-- Settles O9: loading is one read of the effective address, and a read of plain memory returns what it holds. -/
theorem operandsAreLoadedFromMemory : Obligations.OperandsAreLoadedFromMemory := by
  intro s v m
  exact ⟨rfl, rfl, Src.after_log_mem m s, fun hd => ⟨Src.value_mem_plain hd, Src.value_mem_plain hd⟩⟩

/-! ## What loads and stores change -/

/-- A trail that records what loading records stores nothing and touches what the operand touches. -/
theorem Claims.Effect.of_load {s t : State} {r : Regs} (src : Src) (h : Trail s t) (hregs : regsOf t = r)
    (hlog : t.log = (src.after s).log) : Effect s t r [] (srcTouches src s) := by
  obtain ⟨new, hnew, hreads⟩ := Src.after_reads src s
  exact .of_trail h hregs (hlog.trans hnew) (fun x hx => hreads.addr_mem hx) fun b v hx => absurd hx (hreads.not_write b v)

theorem Machine.Flags.setNZ_eq_nz (p : Flags) (v : Byte) : p.setNZ v = nz p v := rfl

/-- Settles O10: each row loads its register, sets `N` and `Z`, and records what loading the operand records. -/
theorem loadsWriteRegisterAndNZ : Obligations.LoadsWriteRegisterAndNZ := by
  intro v z a s
  refine ⟨fun f hf => ⟨_, exec_ldaForms s f hf, ?_⟩, fun f hf => ⟨_, exec_ldxForms s f hf, ?_⟩,
    fun f hf => ⟨_, exec_ldyForms s f hf, ?_⟩⟩
  · exact .of_load f.2 (Trail.refl.loadA _ _) (by simp [regsOf, Flags.setNZ_eq_nz]) (loadA_log ..)
  · exact .of_load f.2 (Trail.refl.loadX _ _) (by simp [regsOf, Flags.setNZ_eq_nz]) (loadX_log ..)
  · exact .of_load f.2 (Trail.refl.loadY _ _) (by simp [regsOf, Flags.setNZ_eq_nz]) (loadY_log ..)

/-- A store writes its byte to the effective address and changes nothing else. -/
theorem effect_store (m : MemMode) (v : Byte) (n : Nat) (s : State) :
    Effect s (store m v n s) (regsOf s) [m.ea s] (modeTouches m s) ∧ RamHolds s (store m v n s) (m.ea s) v := by
  obtain ⟨new, hnew, hreads⟩ := MemMode.after_reads m s
  have hlog : (store m v n s).log = (.write (m.ea s) v :: new) ++ s.log := by rw [store_log, hnew]; rfl
  refine ⟨.of_trail (Trail.refl.store m v n) (by simp [regsOf]) hlog (List.forall_mem_cons.2 ⟨?_, fun x hx => ?_⟩)
    fun b w hb => ?_, store_mem_same m v n s⟩
  · simp [modeTouches, Access.addr]
  · exact List.mem_append_left _ (hreads.addr_mem hx)
  · obtain h | h := List.mem_cons.1 hb
    · cases h
      exact List.mem_singleton_self _
    · exact absurd h (hreads.not_write b w)

/-- Settles O11: each row is a store of its register, or of 0. -/
theorem storesWriteTheOperandAlone : Obligations.StoresWriteTheOperandAlone := by
  intro z a s
  exact ⟨fun f hf => ⟨_, exec_staForms s f hf, effect_store ..⟩, fun f hf => ⟨_, exec_stxForms s f hf, effect_store ..⟩,
    fun f hf => ⟨_, exec_styForms s f hf, effect_store ..⟩, fun f hf => ⟨_, exec_stzForms s f hf, effect_store ..⟩⟩

/-! ## Cycles

Where no device is touched, each access of the operand takes one cycle; with the instruction's own bytes these are the
accesses a template counts, and `finish` adds the rest of the row's total (70_reset_and_hazards.md R315). -/

section Cycles

variable {s : State}

/-- The accesses of a read-modify-write to its operand: the pointer's, one read, one write. -/
def Claims.dstAccesses (d : Dst) (s : State) : Nat :=
  match d with
  | .acc => 0
  | .mem m => (pointers m s).length + 2

theorem Machine.Src.after_clock_plain {src : Src} (hd : NoDevice s (srcTouches src s)) :
    (src.after s).clock = s.clock + (srcTouches src s).length := by
  cases src with
  | imm v => rfl
  | mem m =>
    obtain ⟨hptr, hea⟩ := noDevice_modeTouches.1 hd
    rw [Src.after, State.afterRead_clock_plain _ _ (State.plainAt_of_regions hea (by simp)), (MemMode.after_plain hptr).2]
    simp [srcTouches, modeTouches, add_assoc]

theorem Machine.store_clock_plain {m : MemMode} (v : Byte) (n : Nat) (hd : NoDevice s (modeTouches m s)) :
    (store m v n s).clock = s.clock + (modeTouches m s).length + (n - m.accesses) := by
  obtain ⟨hptr, hea⟩ := noDevice_modeTouches.1 hd
  rw [store, State.finish_clock, State.writeByte_clock_plain _ _ _ (State.plainAt_of_regions hea (by simp)),
    (MemMode.after_plain hptr).2]
  simp [modeTouches, add_assoc]

theorem Machine.Dst.update_clock_plain {d : Dst} (u : Rmw) (hd : NoDevice s (dstTouches d s)) :
    (d.update s u).clock = s.clock + dstAccesses d s := by
  cases d with
  | acc => rfl
  | mem m =>
    obtain ⟨hptr, hea⟩ := noDevice_modeTouches.1 hd
    have hread := State.afterRead_clock_plain (m.after s) _ (State.plainAt_of_regions hea (by simp))
    rw [Dst.update, State.writeByte_clock_plain _ _ _ (State.plainAt_of_regions hea (by simp)), State.setP_clock, hread,
      (MemMode.after_plain hptr).2]
    rfl

/-! The class tables of R309 have an entry for every row, no smaller than the accesses the row makes. -/

theorem readBase_spec (src : Src) : ∃ n, readBase src = some n ∧ src.accesses ≤ n := by
  cases src with
  | imm v => exact ⟨2, rfl, Nat.le_refl _⟩
  | mem m => cases m <;> exact ⟨_, rfl, by simp [Src.accesses, MemMode.accesses]⟩

theorem writeBase_spec (m : MemMode) : ∃ n, writeBase m = some n ∧ m.accesses ≤ n := by
  cases m <;> exact ⟨_, rfl, by simp [MemMode.accesses]⟩

variable {v z : Byte} {a : Addr}

theorem dst_of_rmwForms : ∀ f ∈ rmwForms z a, f.2 ∈ [.acc, .mem (.zp z), .mem (.zpx z), .mem (.abs a), .mem (.absx a)] := by
  intro f hf
  fin_cases hf <;> simp

theorem rmwBase_spec (s : State) : ∀ f ∈ rmwForms z a, ∃ n, rmwBase f s = some n ∧ f.2.accesses ≤ n := by
  intro f hf
  have hdst := dst_of_rmwForms f hf
  obtain ⟨i, d⟩ := f
  fin_cases hdst
  · exact ⟨2, rfl, Nat.le_add_left ..⟩
  · exact ⟨5, rfl, Nat.le_add_left ..⟩
  · exact ⟨6, rfl, Nat.le_add_left ..⟩
  · exact ⟨6, rfl, Nat.le_add_left ..⟩
  · simp only [rmwBase]
    split
    all_goals exact ⟨_, rfl, by change 5 ≤ _; omega⟩

/-! A template's accesses are the fetches of the instruction's bytes and those of its operand. -/

theorem read_accesses (s : State) : ∀ f ∈ readForms v z a ++ adcForms v z a ++ sbcForms v z a,
    f.2.accesses = (srcTouches f.2 s).length + (encode f.1).length := by
  simp only [readForms, List.forall_mem_cons, List.forall_mem_append, and_assoc]
  refine ⟨rfl, ?_, ?_, ?_, ?_, ?_, ?_, ?_, ?_, ?_, ?_, ?_, ?_⟩
  all_goals
    intro f hf
    fin_cases hf <;> rfl

theorem write_accesses (s : State) : ∀ f ∈ writeForms z a,
    f.2.accesses = (modeTouches f.2 s).length + (encode f.1).length := by
  intro f hf
  fin_cases hf <;> rfl

theorem rmw_accesses (s : State) : ∀ f ∈ rmwForms z a,
    f.2.accesses = dstAccesses f.2 s + (encode f.1).length := by
  intro f hf
  fin_cases hf <;> rfl

/-! What each row's template adds to the clock behind its accesses. -/

theorem exec_read_clock (s : State) : ∀ f ∈ readForms v z a, ∃ t, exec f.1 s = .next t ∧
    t.clock = (f.2.after s).clock + ((readBase f.2).getD 0 + f.2.extra s - f.2.accesses) := by
  simp only [readForms, List.forall_mem_cons, List.forall_mem_append, and_assoc]
  exact ⟨⟨_, rfl, rfl⟩, fun f hf => ⟨_, exec_ldaForms s f hf, rfl⟩, fun f hf => ⟨_, exec_ldxForms s f hf, rfl⟩,
    fun f hf => ⟨_, exec_ldyForms s f hf, rfl⟩, fun f hf => ⟨_, exec_andForms s f hf, rfl⟩,
    fun f hf => ⟨_, exec_oraForms s f hf, rfl⟩, fun f hf => ⟨_, exec_eorForms s f hf, rfl⟩,
    fun f hf => ⟨_, exec_bitForms s f hf, rfl⟩, fun f hf => ⟨_, exec_cmpForms s f hf, rfl⟩,
    fun f hf => ⟨_, exec_cpxForms s f hf, rfl⟩, fun f hf => ⟨_, exec_cpyForms s f hf, rfl⟩⟩

theorem exec_arith_clock (s : State) : ∀ f ∈ adcForms v z a ++ sbcForms v z a, ∃ t, exec f.1 s = .next t ∧
    t.clock = (f.2.after s).clock + ((readBase f.2).getD 0 + f.2.extra s + decimalExtra s - f.2.accesses) := by
  rw [List.forall_mem_append]
  exact ⟨fun f hf => ⟨_, exec_adcForms s f hf, rfl⟩, fun f hf => ⟨_, exec_sbcForms s f hf, rfl⟩⟩

theorem exec_write_eq_store (s : State) : ∀ f ∈ writeForms z a, ∃ w,
    exec f.1 s = .next (store f.2 w ((writeBase f.2).getD 0) s) := by
  simp only [writeForms, List.forall_mem_append, and_assoc]
  exact ⟨fun f hf => ⟨_, exec_staForms s f hf⟩, fun f hf => ⟨_, exec_stxForms s f hf⟩,
    fun f hf => ⟨_, exec_styForms s f hf⟩, fun f hf => ⟨_, exec_stzForms s f hf⟩⟩

theorem exec_rmw_eq_rmw (s : State) : ∀ f ∈ rmwForms z a, ∃ g, exec f.1 s = .next (rmw f.2 g ((rmwBase f s).getD 0) s) := by
  simp only [rmwForms, List.forall_mem_append, and_assoc]
  exact ⟨fun f hf => ⟨_, exec_incForms s f hf⟩, fun f hf => ⟨_, exec_decForms s f hf⟩,
    fun f hf => ⟨_, exec_aslForms s f hf⟩, fun f hf => ⟨_, exec_lsrForms s f hf⟩,
    fun f hf => ⟨_, exec_rolForms s f hf⟩, fun f hf => ⟨_, exec_rorForms s f hf⟩,
    fun f hf => ⟨_, exec_trbForms s f hf⟩, fun f hf => ⟨_, exec_tsbForms s f hf⟩⟩

theorem Machine.Src.extra_eq_crosses (src : Src) (s : State) : src.extra s = (crosses src s).toNat := by
  cases src <;> rfl

/-- A read row's total, with `k` cycles more than its class and its crossing give it. -/
theorem read_total {t : State} {f : Instr × Src} {k : Nat} (hf : f ∈ readForms v z a ++ adcForms v z a ++ sbcForms v z a)
    (hd : NoDevice s (srcTouches f.2 s))
    (hclock : t.clock = (f.2.after s).clock + ((readBase f.2).getD 0 + f.2.extra s + k - f.2.accesses)) :
    some (t.clock + (encode f.1).length) = (readBase f.2).map (fun n => s.clock + n + (crosses f.2 s).toNat + k) := by
  obtain ⟨n, hn, hle⟩ := readBase_spec f.2
  have haccesses := read_accesses s f hf
  rw [Src.after_clock_plain hd, hn, Option.getD_some, Src.extra_eq_crosses] at hclock
  rw [hn, Option.map_some, Option.some_inj]
  omega

end Cycles

/-- Settles O57: a row's clock is its accesses' cycles and what its template adds, in sum its class's count. -/
theorem cyclesOfOperandInstructions : Obligations.CyclesOfOperandInstructions := by
  intro v z a s
  refine ⟨fun f hf hd => ?_, fun f hf hd => ?_, fun f hf hd => ?_, fun f hf hd => ?_⟩
  · obtain ⟨t, hexec, hclock⟩ := exec_read_clock s f hf
    exact ⟨t, hexec, read_total (k := 0) (List.mem_append_left _ (List.mem_append_left _ hf)) hd hclock⟩
  · obtain ⟨t, hexec, hclock⟩ := exec_arith_clock s f hf
    have hf' : f ∈ readForms v z a ++ adcForms v z a ++ sbcForms v z a := by
      rw [List.append_assoc]
      exact List.mem_append_right _ hf
    refine ⟨t, hexec, (read_total hf' hd hclock).trans ?_⟩
    unfold decimalExtra
    cases s.variant <;> rfl
  · obtain ⟨w, hexec⟩ := exec_write_eq_store s f hf
    obtain ⟨n, hn, hle⟩ := writeBase_spec f.2
    have haccesses := write_accesses s f hf
    refine ⟨_, hexec, ?_⟩
    rw [store_clock_plain w _ hd, hn, Option.getD_some, Option.map_some, Option.some_inj]
    omega
  · obtain ⟨g, hexec⟩ := exec_rmw_eq_rmw s f hf
    obtain ⟨n, hn, hle⟩ := rmwBase_spec s f hf
    have haccesses := rmw_accesses s f hf
    refine ⟨_, hexec, ?_⟩
    rw [rmw, State.finish_clock, Dst.update_clock_plain _ hd, hn, Option.getD_some, Option.map_some, Option.some_inj]
    omega

end Sys2Proof
end

section
/-!
PROOFS. The family of 41_load_store_transfer.md: the transfers (R127 to R132), and one word of each family written out from its
encoding table.
-/

namespace Sys2Proof

open Sys2Proof.Machine Sys2Proof.Claims

/-- Settles O4: each word is the encoding of its instruction, which the decoder reads back; 04 has no row on `NMOS`. -/
theorem sampleWordsDecode : Obligations.SampleWordsDecode :=
  have reads (variant : Variant) (i : Instr) (rest : List Byte) (hwf : i.wellFormed variant = true) :
      decode variant (encode i ++ rest) = .ok (i, rest) := decodeOfEncodeIsTheInstruction variant i rest hwf
  ⟨reads .nmos (.ldaAbsx 0x1234) [] rfl, reads .nmos .pha [] rfl, reads .nmos (.adcIndy 0x30) [0xEA] rfl,
    reads .nmos .aslAcc [] rfl, reads .nmos (.jsr 0x0700) [] rfl, reads .nmos (.bpl 0x80) [] rfl, reads .nmos .clc [] rfl,
    reads .nmos .brk [] rfl, reads .cmos (.tsbZp 0x10) [] rfl, (decode_illegalOpcode_iff .nmos 0x04 [0x10]).2 rfl⟩

/-! ## Transfers -/

/-- An instruction that makes no access has the effect its registers show. -/
theorem Claims.Effect.of_exec_without_access {i : Instr} {s t : State} {r : Regs} (h : exec i s = .next t)
    (hregs : regsOf t = r) (hlog : t.log = s.log) : Effect s t r [] [] :=
  .of_trail (new := []) (trail_of_exec h) hregs hlog nofun nofun

/-- Each transfer is one byte, makes no access and adds one cycle to that of its fetch. -/
theorem exec_transferForms (s : State) : ∀ f ∈ transferForms s, encode f.1 = [f.2.1] ∧ ∃ t, exec f.1 s = .next t ∧
    regsOf t = f.2.2 ∧ t.log = s.log ∧ t.clock = s.clock + 1 := by
  intro f hf
  fin_cases hf <;> exact ⟨rfl, _, rfl, rfl, rfl, rfl⟩

/-- Settles O12: a transfer makes no access, so its registers are its whole effect. -/
theorem transfersCopyARegister : Obligations.TransfersCopyARegister := by
  intro s f hf
  obtain ⟨hencode, t, hexec, hregs, hlog, hclock⟩ := exec_transferForms s f hf
  exact ⟨hencode, t, hexec, .of_exec_without_access hexec hregs hlog, hlog, by rw [hclock, hencode]; rfl⟩

end Sys2Proof
end

section
/-!
PROOFS. The family of 42_stack.md: the pushes (R140, R141, R233, R234) and the pulls (R142, R143, R235, R236).
-/

namespace Sys2Proof

open Sys2Proof.Machine Sys2Proof.Claims

theorem Claims.noDevice_stackSlot {s : State} {sp : Byte} :
    NoDevice s [stackSlot sp] ↔ PlainAt s (State.stackAddr sp) := by
  rw [stackSlot_eq_stackAddr, NoDevice, List.forall_mem_singleton]

/-! ## Pushes -/

/-- A push writes its byte to the stack slot, decrements `S`, and changes nothing else. -/
theorem effect_push (s : State) (v : Byte) (total accesses : Nat) :
    Effect s ((s.push v).finish total accesses) { regsOf s with sp := s.sp - 1 } [stackSlot s.sp] [stackSlot s.sp] ∧
      RamHolds s ((s.push v).finish total accesses) (stackSlot s.sp) v := by
  rw [stackSlot_eq_stackAddr]
  exact ⟨.of_trail (new := [_]) ((Trail.refl.push v).finish _ _) (by simp [regsOf]) (State.push_log s v)
    (by simp [Access.addr]) (by simp +contextual), fun hw hr => State.push_mem_same hw v hr⟩

/-- Settles O13: each row is one byte, and one push of its register or of the status image. -/
theorem pushesWriteTheStackSlot : Obligations.PushesWriteTheStackSlot := by
  intro s f hf
  have hrow : encode f.1 = [f.2.1] ∧ exec f.1 s = .next ((s.push f.2.2).finish 3 2) := by
    rw [statusImage_eq_image] at hf
    fin_cases hf <;> exact ⟨rfl, rfl⟩
  obtain ⟨hencode, hexec⟩ := hrow
  obtain ⟨heffect, hram⟩ := effect_push s f.2.2 3 2
  refine ⟨hencode, _, hexec, heffect, hram, ?_, fun hd => ?_⟩
  · rw [stackSlot_eq_stackAddr]
    exact State.push_log s f.2.2
  · rw [State.finish_clock, State.push_clock_plain _ _ (noDevice_stackSlot.1 hd), hencode]
    rfl

/-! ## Pulls -/

/-- An instruction that records what a pull records stores nothing and touches the stack slot. -/
theorem Claims.Effect.of_exec_pull {i : Instr} {s t : State} {r : Regs} (h : exec i s = .next t) (hregs : regsOf t = r)
    (hlog : t.log = s.afterPull.log) : Effect s t r [] [stackSlot (s.sp + 1)] := by
  rw [stackSlot_eq_stackAddr]
  exact .of_trail (new := [_]) (trail_of_exec h) hregs (hlog.trans (State.afterPull_log s)) (by simp [Access.addr]) (by simp)

/-- Each pull is one byte; it records what a pull records and adds two cycles to those of its fetch and its read. -/
theorem exec_pullForms (s : State) : ∀ f ∈ pullForms s s.pulled, encode f.1 = [f.2.1] ∧ ∃ t, exec f.1 s = .next t ∧
    regsOf t = f.2.2 ∧ t.log = s.afterPull.log ∧ t.clock = s.afterPull.clock + 2 := by
  intro f hf
  fin_cases hf <;>
    exact ⟨rfl, _, rfl, by simp [regsOf, Flags.setNZ_eq_nz, flagsOfByte, Flags.ofByte], rfl, rfl⟩

/-- Settles O14: the byte is the one pulled, and each row loads it and records its pull. -/
theorem pullsLoadFromTheStack : Obligations.PullsLoadFromTheStack := by
  intro s
  refine ⟨s.pulled, fun hd => ?_, fun f hf => ?_⟩
  · rw [stackSlot_eq_stackAddr]
    exact State.pulled_plain s (noDevice_stackSlot.1 hd)
  · obtain ⟨hencode, t, hexec, hregs, hlog, hclock⟩ := exec_pullForms s f hf
    refine ⟨hencode, t, hexec, .of_exec_pull hexec hregs hlog, ?_, fun hd => ?_⟩
    · rw [hlog, State.afterPull_log, stackSlot_eq_stackAddr]
    · rw [hclock, State.afterPull_clock_plain _ (noDevice_stackSlot.1 hd), hencode]
      rfl

end Sys2Proof
end

section
/-!
PROOFS. The family of 43_logic_arith.md: logic and comparison (R153 to R157, R160 to R162, R243), and addition and subtraction,
binary (R150) and decimal (R151, R152, R246, R247).
-/

namespace Sys2Proof

open Sys2Proof.Machine Sys2Proof.Claims

/-! ## Logic -/

theorem effect_logicA (op : Byte → Byte → Byte) (src : Src) (n : Nat) (s : State) : Effect s (logicA op src n s)
    { regsOf s with a := op s.a (src.value s), p := nz s.p (op s.a (src.value s)) } [] (srcTouches src s) :=
  .of_load src (Trail.refl.logicA _ _ _) (by simp [regsOf, Flags.setNZ_eq_nz]) (logicA_log ..)

/-- Settles O15: each row combines `A` with its operand. -/
theorem logicWritesAccumulatorAndNZ : Obligations.LogicWritesAccumulatorAndNZ := by
  intro v z a s
  exact ⟨fun f hf => ⟨_, exec_andForms s f hf, effect_logicA ..⟩, fun f hf => ⟨_, exec_oraForms s f hf, effect_logicA ..⟩,
    fun f hf => ⟨_, exec_eorForms s f hf, effect_logicA ..⟩⟩

theorem Machine.Flags.bitTest_eq (p : Flags) (a m : Byte) :
    p.bitTest a m = { p with z := decide (a &&& m = 0), n := m.getLsbD 7, v := m.getLsbD 6 } := rfl

theorem Machine.Flags.testZ_eq (p : Flags) (a m : Byte) : p.testZ a m = { p with z := decide (a &&& m = 0) } := rfl

/-- Settles O16: a memory row sets `N`, `V` and `Z`, and the immediate row, which makes no access, `Z`. -/
theorem bitTestsWriteFlagsOnly : Obligations.BitTestsWriteFlagsOnly := by
  intro v z a s
  refine ⟨fun f hf => ⟨_, exec_bitForms s f hf, ?_⟩, ⟨bitImm v 2 s, rfl, ?_⟩⟩
  · exact .of_load f.2 (Trail.refl.bitMem _ _) (by simp [regsOf, Flags.bitTest_eq]) (bitMem_log ..)
  · exact .of_exec_without_access (i := .bitImm v) rfl (by simp [regsOf, Flags.testZ_eq]) (bitImm_log ..)

/-! ## Comparison -/

theorem Claims.ofInt_sub_eq_sub (r m : Byte) : BitVec.ofInt 8 ((r.toNat : Int) - m.toNat) = r - m := by
  apply BitVec.eq_of_toNat_eq
  rw [BitVec.toNat_ofInt, BitVec.toNat_sub]
  omega

theorem Machine.Flags.compare_eq_compareFlags (p : Flags) (r m : Byte) : p.compare r m = compareFlags p r m := by
  rw [compareFlags, ofInt_sub_eq_sub]
  rfl

theorem effect_compareReg (r : Byte) (src : Src) (n : Nat) (s : State) : Effect s (compareReg r src n s)
    { regsOf s with p := compareFlags s.p r (src.value s) } [] (srcTouches src s) :=
  .of_load src (Trail.refl.compareReg _ _ _) (by simp [regsOf, Flags.compare_eq_compareFlags]) (compareReg_log ..)

/-- Settles O21: each row compares its register with its operand. -/
theorem comparesWriteCZN : Obligations.ComparesWriteCZN := by
  intro v z a s
  exact ⟨fun f hf => ⟨_, exec_cmpForms s f hf, effect_compareReg ..⟩,
    fun f hf => ⟨_, exec_cpxForms s f hf, effect_compareReg ..⟩, fun f hf => ⟨_, exec_cpyForms s f hf, effect_compareReg ..⟩⟩

/-! ## What an adder's result does to the machine -/

/-- `ADC` and `SBC` leave what the adder `g` answers, in `A` and four flags. -/
theorem effect_arithA {g : Variant → Flags → Byte → Byte → Alu} {src : Src} {s : State} {u : Alu} (n : Nat)
    (h : g s.variant s.p s.a (src.value s) = u) :
    Effect s (arithA g src n s) { regsOf s with a := u.r, p := s.p.ofAlu u } [] (srcTouches src s) :=
  .of_load src (Trail.refl.arithA _ _ _) (by simp [regsOf, h]) (arithA_log ..)

/-! ## The binary adder -/

theorem bit7_eq_decide (v : Byte) : v.getLsbD 7 = decide (128 ≤ v.toNat) := BitVec.msb_eq_decide v

section Binary

variable (a m : Byte) (c : Bool)

/-- The overflow of R150 is signed overflow: the operands agree in bit 7 and the result does not. -/
theorem addBinary_v : (addBinary a m c).v =
    decide (a.toInt + m.toInt + (c.toNat : Int) < -128 ∨ 127 < a.toInt + m.toInt + (c.toNat : Int)) := by
  have hc := c.toNat_le
  have ha := a.isLt
  have hm := m.isLt
  simp only [addBinary]
  rw [BitVec.getLsbD_and, BitVec.getLsbD_xor, BitVec.getLsbD_xor, bit7_eq_decide, bit7_eq_decide, bit7_eq_decide,
    BitVec.toNat_ofNat, BitVec.toInt_eq_toNat_cond, BitVec.toInt_eq_toNat_cond, Bool.eq_iff_iff]
  simp only [Bool.and_eq_true, bne_iff_ne, ne_eq, decide_eq_decide, decide_eq_true_eq]
  split <;> split <;> omega

theorem xor_FF_toNat : (m ^^^ 0xFF).toNat = 255 - m.toNat := by
  rw [show (0xFF : Byte) = BitVec.allOnes 8 from rfl, BitVec.xor_allOnes, BitVec.toNat_not]

theorem xor_FF_toInt : (m ^^^ 0xFF).toInt = -1 - m.toInt := by
  have := m.isLt
  rw [BitVec.toInt_eq_toNat_cond, BitVec.toInt_eq_toNat_cond, xor_FF_toNat]
  split <;> split <;> omega

/-- Adding the complement and the carry subtracts the byte and the borrow (R150). -/
theorem subBinary_r : (subBinary a m c).r = BitVec.ofInt 8 ((a.toNat : Int) - m.toNat - (1 - c.toNat : Nat)) := by
  have := m.isLt
  have := c.toNat_le
  apply BitVec.eq_of_toNat_eq
  simp only [subBinary, addBinary]
  rw [BitVec.toNat_ofNat, BitVec.toNat_ofInt, xor_FF_toNat]
  omega

theorem subBinary_c : (subBinary a m c).c = decide (m.toNat + (1 - c.toNat) ≤ a.toNat) := by
  have := m.isLt
  have := c.toNat_le
  simp only [subBinary, addBinary, xor_FF_toNat, decide_eq_decide]
  omega

theorem subBinary_v : (subBinary a m c).v = decide (a.toInt - m.toInt - ((1 - c.toNat : Nat) : Int) < -128 ∨
    127 < a.toInt - m.toInt - ((1 - c.toNat : Nat) : Int)) := by
  have := c.toNat_le
  rw [subBinary, addBinary_v, xor_FF_toInt, decide_eq_decide]
  omega

end Binary

/-- Settles O17: with `D = 0` the adder is the binary one. -/
theorem binaryAddition : Obligations.BinaryAddition := by
  intro v z a s hd f hf
  have hadc : adcResult s.variant s.p s.a (f.2.value s) = addBinary s.a (f.2.value s) s.p.c := by simp [adcResult, hd]
  refine ⟨_, exec_adcForms s f hf, ?_⟩
  rw [← addBinary_v]
  exact effect_arithA _ hadc

/-- Settles O18: with `D = 0` a row adds the complement of its operand, and that is the difference. -/
theorem binarySubtraction : Obligations.BinarySubtraction := by
  intro v z a s hd f hf
  have hsbc : sbcResult s.variant s.p s.a (f.2.value s) = subBinary s.a (f.2.value s) s.p.c := by simp [sbcResult, hd]
  refine ⟨_, exec_sbcForms s f hf, ?_⟩
  rw [← subBinary_v, ← subBinary_c, ← subBinary_r]
  exact effect_arithA _ hsbc

/-! ## The decimal functions -/

/-- A decimal function's answer as the model's adders give it. -/
def Claims.Decimal.toAlu (u : Decimal) : Alu := { r := BitVec.ofInt 8 u.r, c := u.c, v := u.v, n := u.n, z := u.z }

theorem decimalRegs_eq (s : State) (u : Decimal) :
    decimalRegs s u = { regsOf s with a := u.toAlu.r, p := s.p.ofAlu u.toAlu } := rfl

/-! The masks of the rules, as the model's quotients and remainders. -/

theorem and_0F_eq_mod (n : Nat) : n &&& 0x0F = n % 16 := Nat.and_two_pow_sub_one_eq_mod n 4

theorem and_F0_eq_div_mul : ∀ a : Byte, a.toNat &&& 0xF0 = a.toNat / 16 * 16 := by decide

theorem and_80_ne_zero (n : Nat) : (n &&& 0x80 != 0) = n.testBit 7 := by
  rw [show 0x80 = 2 ^ 7 from rfl, Nat.and_two_pow]
  cases n.testBit 7 <;> rfl

theorem ofNat_getLsbD_7 (t : Nat) : (BitVec.ofNat 8 t).getLsbD 7 = t.testBit 7 := BitVec.getLsbD_ofNat ..

/-- The overflow bit of R150 and R151, on numbers and on bytes. -/
theorem overflow_eq_getLsbD (a m : Byte) (t : Nat) : (((a.toNat ^^^ t) &&& (m.toNat ^^^ t) &&& 0x80) != 0) =
    ((a ^^^ BitVec.ofNat 8 t) &&& (m ^^^ BitVec.ofNat 8 t)).getLsbD 7 := by
  simp only [and_80_ne_zero, Nat.testBit_and, Nat.testBit_xor, BitVec.testBit_toNat, BitVec.getLsbD_and, BitVec.getLsbD_xor,
    ofNat_getLsbD_7]

section DecimalFunctions

variable (a m : Byte) (c : Bool)

theorem specMid_eq : specMid a.toNat m.toNat c.toNat = decimalMid a m c := by
  simp only [specMid, specLow, decimalMid, decimalLow, and_0F_eq_mod, and_F0_eq_div_mul]

theorem specSum_eq : specSum a.toNat m.toNat c.toNat = decimalSum a m c := by
  simp only [specSum, specMid_eq, decimalSum]

theorem specLowDiff_eq : specLowDiff a.toNat m.toNat c.toNat = decimalLowDiff a m c := by
  simp only [specLowDiff, decimalLowDiff, and_0F_eq_mod]

/-! A byte, and each of its flags, is that of the number modulo 256. -/

theorem ofNat_mod_256 (n : Nat) : BitVec.ofNat 8 (n % 256) = BitVec.ofNat 8 n :=
  BitVec.eq_of_toNat_eq (by simp)

theorem mod_256_beq_zero (n : Nat) : (n % 256 == 0) = (BitVec.ofNat 8 n == 0) := by
  rw [Bool.eq_iff_iff, beq_iff_eq, beq_iff_eq, ← BitVec.toNat_inj, BitVec.toNat_ofNat]
  rfl

theorem testBit_mod_256 (n : Nat) : (n % 256).testBit 7 = n.testBit 7 := Nat.testBit_mod_two_pow n 8 7

theorem adcDecimalNmos_eq : adcDecimalNmos a m c = (specAdcNmos a.toNat m.toNat c.toNat).toAlu := by
  simp only [adcDecimalNmos, Decimal.toAlu, specAdcNmos, specMid_eq, specSum_eq, BitVec.ofInt_natCast, ofNat_mod_256,
    overflow_eq_getLsbD, mod_256_beq_zero, decimalOverflow, ofNat_getLsbD_7, addBinary]

theorem adcDecimalCmos_eq : adcDecimalCmos a m c = (specAdcCmos a.toNat m.toNat c.toNat).toAlu := by
  simp only [adcDecimalCmos, Decimal.toAlu, specAdcCmos, specMid_eq, specSum_eq, BitVec.ofInt_natCast, ofNat_mod_256,
    overflow_eq_getLsbD, mod_256_beq_zero, decimalOverflow, ofNat_getLsbD_7, testBit_mod_256]

theorem toNat_xor_FF : m.toNat ^^^ 0xFF = (m ^^^ 0xFF).toNat := rfl

/-- The binary subtraction that R152 and R247 name. -/
theorem subBinary_eq : subBinary a m c =
    { r := BitVec.ofNat 8 (specSubByte a.toNat m.toNat c.toNat), c := specSubCarry a.toNat m.toNat c.toNat,
      v := specSubOverflow a.toNat m.toNat c.toNat, n := (specSubByte a.toNat m.toNat c.toNat).testBit 7,
      z := specSubByte a.toNat m.toNat c.toNat == 0 } := by
  simp only [subBinary, addBinary, specSubCarry, specSubOverflow, specSubByte, toNat_xor_FF, overflow_eq_getLsbD,
    ofNat_mod_256, testBit_mod_256, mod_256_beq_zero, ofNat_getLsbD_7]

theorem ofInt_mod_256 (t : Int) : BitVec.ofInt 8 (t % 256) = BitVec.ofInt 8 t :=
  BitVec.eq_of_toNat_eq (by simp)

theorem sbcDecimalNmos_eq : sbcDecimalNmos a m c = (specSbcNmos a.toNat m.toNat c.toNat).toAlu := by
  simp only [sbcDecimalNmos, decimalDiffNmos, Decimal.toAlu, specSbcNmos, subBinary_eq, specLowDiff_eq, and_F0_eq_div_mul,
    ofInt_mod_256]

theorem ofInt_getLsbD_7 (t : Int) : (BitVec.ofInt 8 t).getLsbD 7 = decide (128 ≤ t % 256) := by
  rw [bit7_eq_decide, BitVec.toNat_ofInt, decide_eq_decide]
  omega

theorem int_mod_256_beq_zero (t : Int) : (t % 256 == 0) = (BitVec.ofInt 8 t == 0) := by
  rw [Bool.eq_iff_iff, beq_iff_eq, beq_iff_eq, ← BitVec.toNat_inj, BitVec.toNat_ofInt]
  change _ ↔ _ = 0
  omega

theorem sbcDecimalCmos_eq : sbcDecimalCmos a m c = (specSbcCmos a.toNat m.toNat c.toNat).toAlu := by
  simp only [sbcDecimalCmos, decimalDiffCmos, Decimal.toAlu, specSbcCmos, subBinary_eq, specLowDiff_eq, ofInt_mod_256,
    ofInt_getLsbD_7, int_mod_256_beq_zero]

end DecimalFunctions

/-- Settles O19: with `D = 1` the adders are the variant's, and they are the functions of the rules. -/
theorem decimalFunctions : Obligations.DecimalFunctions := by
  intro v z a s hd
  refine ⟨fun f hf => ⟨_, exec_adcForms s f hf, ?_⟩, fun f hf => ⟨_, exec_sbcForms s f hf, ?_⟩⟩
  · rw [decimalRegs_eq]
    exact effect_arithA _ (by cases s.variant <;> simp [adcResult, hd, adcDecimalNmos_eq, adcDecimalCmos_eq])
  · rw [decimalRegs_eq]
    exact effect_arithA _ (by cases s.variant <;> simp [sbcResult, hd, sbcDecimalNmos_eq, sbcDecimalCmos_eq])

/-! ## Decimal arithmetic on packed BCD -/

/-- The two digits of a packed BCD byte, as what the adders take from it and as what it is worth. -/
theorem exists_digits_of_isBcd {b : Byte} (h : isBcd b) : ∃ hi lo, hi < 10 ∧ lo < 10 ∧ b.toNat / 16 = hi ∧
    b.toNat % 16 = lo ∧ b.toNat = 16 * hi + lo ∧ ofBcd b = 10 * hi + lo := by
  obtain ⟨hhi, hlo⟩ := h
  exact ⟨b.toNat / 16, b.toNat % 16, hhi, hlo, rfl, rfl, by omega, by rw [ofBcd]; omega⟩

/-- The packed BCD byte of a number below 100. -/
def Claims.toBcd (n : Nat) : Byte := BitVec.ofNat 8 (n / 10 * 16 + n % 10)

theorem toBcd_toNat {n : Nat} (h : n < 100) : (toBcd n).toNat = n / 10 * 16 + n % 10 := by
  rw [toBcd, BitVec.toNat_ofNat]
  omega

theorem isBcd_toBcd {n : Nat} (h : n < 100) : isBcd (toBcd n) := by
  rw [isBcd, toBcd_toNat h]
  omega

theorem ofBcd_toBcd {n : Nat} (h : n < 100) : ofBcd (toBcd n) = n := by
  rw [ofBcd, toBcd_toNat h]
  omega

/-- What a decimal subtraction of packed BCD bytes comes to, modulo 256. -/
def Claims.bcdDiff (a m : Byte) (c : Bool) : Int :=
  (a.toNat : Int) - m.toNat + c.toNat - 1 - (if decimalLowDiff a m c < 0 then 6 else 0) -
    (if ofBcd a < ofBcd m + (1 - c.toNat) then 0x60 else 0)

section Bcd

variable {a m : Byte} (c : Bool) (ha : isBcd a) (hm : isBcd m)
include ha hm

/-- On packed BCD the corrections of an addition carry each digit over 9 into the next. -/
theorem decimalSum_bcd : decimalSum a m c =
    (ofBcd a + ofBcd m + c.toNat) / 100 * 256 + (toBcd ((ofBcd a + ofBcd m + c.toNat) % 100)).toNat := by
  have hc := c.toNat_le
  obtain ⟨ah, al, hah, hal, hahi, halo, ha, hat⟩ := exists_digits_of_isBcd ha
  obtain ⟨mh, ml, hmh, hml, hmhi, hmlo, hm, hmt⟩ := exists_digits_of_isBcd hm
  rw [toBcd_toNat (Nat.mod_lt _ (by decide)), hat, hmt]
  simp only [decimalSum, decimalMid, decimalLow, hahi, halo, hmhi, hmlo]
  -- a carry out of the low digit or none, a carry out of the high digit or none
  split <;> split <;> omega

/-- On packed BCD both corrections take 6 for a borrow of the low digit and 0x60 for one of the high digit. -/
theorem decimalDiffNmos_eq_bcdDiff : decimalDiffNmos a m c = BitVec.ofInt 8 (bcdDiff a m c) := by
  have hc := c.toNat_le
  obtain ⟨ah, al, hah, hal, hahi, halo, ha, hat⟩ := exists_digits_of_isBcd ha
  obtain ⟨mh, ml, hmh, hml, hmhi, hmlo, hm, hmt⟩ := exists_digits_of_isBcd hm
  have hlow : decimalLowDiff a m c = (al : Int) - ml + c.toNat - 1 := by rw [decimalLowDiff, halo, hmlo]
  unfold decimalDiffNmos bcdDiff
  rw [hahi, hmhi]
  by_cases hborrow : decimalLowDiff a m c < 0
  · simp only [hborrow, if_true]
    congr 1
    split <;> split <;> omega
  · simp only [hborrow, if_false]
    congr 1
    split <;> split <;> omega

theorem decimalDiffCmos_eq_bcdDiff : decimalDiffCmos a m c = BitVec.ofInt 8 (bcdDiff a m c) := by
  have hc := c.toNat_le
  obtain ⟨ah, al, hah, hal, hahi, halo, ha, hat⟩ := exists_digits_of_isBcd ha
  obtain ⟨mh, ml, hmh, hml, hmhi, hmlo, hm, hmt⟩ := exists_digits_of_isBcd hm
  simp only [decimalDiffCmos, bcdDiff]
  congr 1
  -- a borrow of the low digit, then the borrow of the high digit as each side tests for it
  split <;> split <;> split <;> omega

/-- With the borrow of the high digit a difference is 100 more, so both corrections give its digits. -/
theorem ofInt_bcdDiff : BitVec.ofInt 8 (bcdDiff a m c) = toBcd ((ofBcd a + 100 - (ofBcd m + (1 - c.toNat))) % 100) := by
  have hc := c.toNat_le
  obtain ⟨ah, al, hah, hal, hahi, halo, ha, hat⟩ := exists_digits_of_isBcd ha
  obtain ⟨mh, ml, hmh, hml, hmhi, hmlo, hm, hmt⟩ := exists_digits_of_isBcd hm
  have hlow : decimalLowDiff a m c = (al : Int) - ml + c.toNat - 1 := by rw [decimalLowDiff, halo, hmlo]
  apply BitVec.eq_of_toNat_eq
  rw [toBcd_toNat (Nat.mod_lt _ (by decide)), BitVec.toNat_ofInt, bcdDiff]
  by_cases hborrow : ofBcd a < ofBcd m + (1 - c.toNat)
  · rw [if_pos hborrow, Nat.mod_eq_of_lt (by omega : _ < 100)]
    split <;> omega
  · rw [if_neg hborrow, Nat.mod_eq_sub_mod (by omega : _ ≥ 100), Nat.mod_eq_of_lt (by omega : _ < 100)]
    split <;> omega

theorem adcResult_bcd (variant : Variant) (p : Flags) (hd : p.d = true) :
    (adcResult variant p a m).r = toBcd ((ofBcd a + ofBcd m + p.c.toNat) % 100) ∧
      (adcResult variant p a m).c = decide (100 ≤ ofBcd a + ofBcd m + p.c.toNat) := by
  have hsum := decimalSum_bcd p.c ha hm
  have hbyte : BitVec.ofNat 8 (decimalSum a m p.c) = toBcd ((ofBcd a + ofBcd m + p.c.toNat) % 100) := by
    rw [hsum]
    apply BitVec.eq_of_toNat_eq
    rw [BitVec.toNat_ofNat]
    omega
  have hcarry : 0x100 ≤ decimalSum a m p.c ↔ 100 ≤ ofBcd a + ofBcd m + p.c.toNat := by omega
  cases variant <;> simp [adcResult, hd, adcDecimalNmos, adcDecimalCmos, hbyte, hcarry]

theorem sbcResult_bcd (variant : Variant) (p : Flags) (hd : p.d = true) :
    (sbcResult variant p a m).r = toBcd ((ofBcd a + 100 - (ofBcd m + (1 - p.c.toNat))) % 100) ∧
      (sbcResult variant p a m).c = decide (ofBcd m + (1 - p.c.toNat) ≤ ofBcd a) := by
  have hcarry : m.toNat + (1 - p.c.toNat) ≤ a.toNat ↔ ofBcd m + (1 - p.c.toNat) ≤ ofBcd a := by
    have hc := p.c.toNat_le
    obtain ⟨ah, al, hah, hal, hahi, halo, ha, hat⟩ := exists_digits_of_isBcd ha
    obtain ⟨mh, ml, hmh, hml, hmhi, hmlo, hm, hmt⟩ := exists_digits_of_isBcd hm
    omega
  cases variant <;> simp [sbcResult, hd, sbcDecimalNmos, sbcDecimalCmos, subBinary_c, hcarry,
    decimalDiffNmos_eq_bcdDiff _ ha hm, decimalDiffCmos_eq_bcdDiff _ ha hm, ofInt_bcdDiff _ ha hm]

end Bcd

/-- Settles O20: the byte is the packed BCD of the sum or difference modulo 100, and the carry says which side of 100 or of 0
it lies on. -/
theorem decimalArithmeticIsCorrectOnBcd : Obligations.DecimalArithmeticIsCorrectOnBcd := by
  intro v z a s hd ha
  refine ⟨fun f hf hm => ⟨_, exec_adcForms s f hf, ?_⟩, fun f hf hm => ⟨_, exec_sbcForms s f hf, ?_⟩⟩
  · obtain ⟨hr, hc⟩ := adcResult_bcd ha hm s.variant s.p hd
    have hlt := Nat.mod_lt (ofBcd s.a + ofBcd (f.2.value s) + s.p.c.toNat) (by decide : 0 < 100)
    rw [arithA_a, arithA_p, hr]
    exact ⟨isBcd_toBcd hlt, ofBcd_toBcd hlt, hc⟩
  · obtain ⟨hr, hc⟩ := sbcResult_bcd ha hm s.variant s.p hd
    have hlt := Nat.mod_lt (ofBcd s.a + 100 - (ofBcd (f.2.value s) + (1 - s.p.c.toNat))) (by decide : 0 < 100)
    rw [arithA_a, arithA_p, hr]
    refine ⟨isBcd_toBcd hlt, ?_, hc⟩
    rw [ofBcd_toBcd hlt]
    obtain ⟨ah, al, hah, hal, hahi, halo, ha, hat⟩ := exists_digits_of_isBcd ha
    obtain ⟨mh, ml, hmh, hml, hmhi, hmlo, hm, hmt⟩ := exists_digits_of_isBcd hm
    rw [Nat.mod_add_mod]
    omega

end Sys2Proof
end

section
/-!
PROOFS. The family of 44_incdec_shift.md: the read-modify-write template (R170), increments and decrements of an operand
(R171, R172, R241, R242) and of an index register (R173 to R176), shifts and rotates (R177 to R180).
-/

namespace Sys2Proof

open Sys2Proof.Machine Sys2Proof.Claims

/-! ## The read-modify-write template -/

/-- On the accumulator the template makes no access. -/
theorem effect_rmw_acc (g : Flags → Byte → Rmw) (n : Nat) (s : State) :
    Effect s (rmw .acc g n s) { regsOf s with a := (g s.p s.a).r, p := (g s.p s.a).p } [] [] :=
  .of_trail (new := []) (Trail.refl.rmw _ _ _) (by simp [regsOf, Dst.value]) (rmw_acc_log ..) nofun nofun

/-- On memory the template loads its operand, writes the effective address once, and changes nothing else but the flags. -/
theorem effect_rmw_mem (m : MemMode) (g : Flags → Byte → Rmw) (n : Nat) (s : State) :
    Effect s (rmw (.mem m) g n s) { regsOf s with p := (g s.p ((Dst.mem m).value s)).p } [m.ea s] (modeTouches m s) ∧
      RamHolds s (rmw (.mem m) g n s) (m.ea s) (g s.p ((Dst.mem m).value s)).r := by
  obtain ⟨new, hnew, hreads⟩ := Src.after_reads (.mem m) s
  have hlog : (rmw (.mem m) g n s).log = (.write (m.ea s) (g s.p ((Dst.mem m).value s)).r :: new) ++ s.log := by
    rw [List.cons_append, ← hnew, Src.after_log_mem, rmw_mem_log]
    rfl
  refine ⟨.of_trail (Trail.refl.rmw _ g n) (by simp [regsOf]) hlog (List.forall_mem_cons.2 ⟨?_, fun x hx => ?_⟩)
    fun b w hb => ?_, rmw_mem_same m g n s⟩
  · simp [modeTouches, Access.addr]
  · exact hreads.addr_mem hx
  · obtain h | h := List.mem_cons.1 hb
    · cases h
      exact List.mem_singleton_self _
    · exact absurd h (hreads.not_write b w)

/-- A row that runs the template with `g` rewrites its operand with what `g` makes of it under the old flags. -/
theorem rewrites_of_exec_rmw {s : State} {f : Instr × Dst} {g : Flags → Byte → Rmw} {n : Nat} {value : Byte → Byte}
    {flags : Byte → Flags} (hexec : exec f.1 s = .next (rmw f.2 g n s))
    (hg : ∀ m, g s.p m = { r := value m, p := flags m }) : Rewrites s f value flags := by
  refine ⟨_, hexec, ?_⟩
  obtain ⟨i, d⟩ := f
  cases d with
  | acc => exact ⟨rfl, by simpa only [hg, Dst.value] using effect_rmw_acc g n s⟩
  | mem m => simpa only [hg] using effect_rmw_mem m g n s

/-! ## Increments and decrements -/

/-- Settles O22: each row runs the template with `incByte` or `decByte`. -/
theorem incrementAndDecrementOperands : Obligations.IncrementAndDecrementOperands := by
  intro z a s
  exact ⟨fun f hf => rewrites_of_exec_rmw (exec_incForms s f hf) fun _ => rfl,
    fun f hf => rewrites_of_exec_rmw (exec_decForms s f hf) fun _ => rfl⟩

/-- Each of the four is one byte, makes no access and adds one cycle to that of its fetch. -/
theorem exec_indexForms (s : State) : ∀ f ∈ indexForms s, encode f.1 = [f.2.1] ∧ ∃ t, exec f.1 s = .next t ∧
    regsOf t = f.2.2 ∧ t.log = s.log ∧ t.clock = s.clock + 1 := by
  intro f hf
  fin_cases hf <;> exact ⟨rfl, _, rfl, rfl, rfl, rfl⟩

/-- Settles O23: an index increment or decrement makes no access, so its registers are its whole effect. -/
theorem indexIncrementsAndDecrements : Obligations.IndexIncrementsAndDecrements := by
  intro s f hf
  obtain ⟨hencode, t, hexec, hregs, hlog, hclock⟩ := exec_indexForms s f hf
  exact ⟨hencode, t, hexec, .of_exec_without_access hexec hregs hlog, hlog, by rw [hclock, hencode]; rfl⟩

/-! ## Shifts and rotates

What each makes of its operand and the flags, as numbers: the byte is that of `aslByte_r` and its three neighbours, the carry
bit 7 or bit 0 of the old byte. -/

section Shifts

variable (p : Flags) (m : Byte)

theorem bit0_eq_decide : m.getLsbD 0 = decide (m.toNat % 2 = 1) := Nat.testBit_zero m.toNat

theorem aslByte_eq : aslByte p m =
    { r := BitVec.ofNat 8 (2 * m.toNat),
      p := { nz p (BitVec.ofNat 8 (2 * m.toNat)) with c := decide (128 ≤ m.toNat) } } := by
  rw [← aslByte_r p m, ← bit7_eq_decide]
  rfl

theorem lsrByte_eq : lsrByte p m =
    { r := BitVec.ofNat 8 (m.toNat / 2),
      p := { nz p (BitVec.ofNat 8 (m.toNat / 2)) with c := decide (m.toNat % 2 = 1) } } := by
  rw [← lsrByte_r p m, ← bit0_eq_decide]
  rfl

theorem rolByte_eq : rolByte p m =
    { r := BitVec.ofNat 8 (2 * m.toNat + p.c.toNat),
      p := { nz p (BitVec.ofNat 8 (2 * m.toNat + p.c.toNat)) with c := decide (128 ≤ m.toNat) } } := by
  rw [← rolByte_r p m, ← bit7_eq_decide]
  rfl

theorem rorByte_eq : rorByte p m =
    { r := BitVec.ofNat 8 (m.toNat / 2 + 128 * p.c.toNat),
      p := { nz p (BitVec.ofNat 8 (m.toNat / 2 + 128 * p.c.toNat)) with c := decide (m.toNat % 2 = 1) } } := by
  rw [← rorByte_r p m, ← bit0_eq_decide]
  rfl

end Shifts

/-- Settles O24: each row runs the template with its shift or rotate. -/
theorem shiftsAndRotates : Obligations.ShiftsAndRotates := by
  intro z a s
  exact ⟨fun f hf => rewrites_of_exec_rmw (exec_aslForms s f hf) (aslByte_eq s.p),
    fun f hf => rewrites_of_exec_rmw (exec_lsrForms s f hf) (lsrByte_eq s.p),
    fun f hf => rewrites_of_exec_rmw (exec_rolForms s f hf) (rolByte_eq s.p),
    fun f hf => rewrites_of_exec_rmw (exec_rorForms s f hf) (rorByte_eq s.p)⟩

end Sys2Proof
end

section
/-!
PROOFS. The family of 45_control_flow.md: the return from a subroutine (R192) and the branches (R193 to R201, R232, R311).
-/

namespace Sys2Proof

open Sys2Proof.Machine Sys2Proof.Claims

/-! ## Pulling a word -/

namespace Machine.State

variable {s : State}

/-- The two reads of a pulled word, low byte first (20_memory.md R62). -/
theorem afterPullWord_log : s.afterPullWord.log =
    .read (stackAddr (s.sp + 2)) s.afterPull.pulled :: .read (stackAddr (s.sp + 1)) s.pulled :: s.log := by
  rw [afterPullWord, afterPull_log, afterPull_log, afterPull_sp, add_assoc]
  rfl

/-- After one pull the slot of the next is a device's or not as it was before. -/
theorem plainAt_slot_afterPull (h : PlainAt s (stackAddr (s.sp + 2))) :
    PlainAt s.afterPull (stackAddr (s.afterPull.sp + 1)) := by
  rw [afterPull_sp, add_assoc]
  exact plainAt_of_regions h (afterPull_regions s)

/-- The high byte of a word pulled from plain memory is the one memory held before the low byte was pulled. -/
theorem pulled_afterPull_plain (hl : PlainAt s (stackAddr (s.sp + 1))) (hh : PlainAt s (stackAddr (s.sp + 2))) :
    s.afterPull.pulled = s.mem.read (stackAddr (s.sp + 2)).toNat := by
  rw [pulled_plain _ (plainAt_slot_afterPull hh), afterPull_mem_plain hl, afterPull_sp, add_assoc]
  rfl

theorem afterPullWord_clock_plain (hl : PlainAt s (stackAddr (s.sp + 1))) (hh : PlainAt s (stackAddr (s.sp + 2))) :
    s.afterPullWord.clock = s.clock + 2 := by
  rw [afterPullWord, afterPull_clock_plain _ (plainAt_slot_afterPull hh), afterPull_clock_plain _ hl]

end Machine.State

/-! ## RTS -/

/-- The address after the one a word's two bytes make, as a number. -/
theorem Claims.mkAddr_add_one_toNat (l h : Byte) : (mkAddr l h + 1).toNat = (l.toNat + 256 * h.toNat + 1) % 65536 := by
  rw [BitVec.toNat_add, mkAddr_toNat]
  rfl

/-- Settles O28: `RTS` pulls a word, which writes nothing, and loads `PC` with the address after it. -/
theorem rtsPullsAndAddsOne : Obligations.RtsPullsAndAddsOne := by
  refine ⟨rfl, fun s => ⟨(s.afterPullWord.setPc (s.pulledWord + 1)).finish 6 3, rfl, ?_⟩⟩
  simp only [stackSlot_eq_stackAddr]
  have hplain (hd : NoDevice s [State.stackAddr (s.sp + 1), State.stackAddr (s.sp + 2)]) :
      PlainAt s (State.stackAddr (s.sp + 1)) ∧ PlainAt s (State.stackAddr (s.sp + 2)) := by simpa [NoDevice] using hd
  have hlog := State.afterPullWord_log (s := s)
  refine ⟨?_, ⟨s.pulled, s.afterPull.pulled, hlog, mkAddr_add_one_toNat .., fun hd => ?_⟩, fun hd => ?_⟩
  · exact .of_trail (new := [_, _]) ((Trail.refl.pullWord.setPc _).finish 6 3) (by simp [regsOf, add_assoc]) hlog
      (by simp [Access.addr]) (by simp)
  · obtain ⟨hl, hh⟩ := hplain hd
    exact ⟨State.pulled_plain s hl, State.pulled_afterPull_plain hl hh⟩
  · obtain ⟨hl, hh⟩ := hplain hd
    rw [State.finish_clock, State.setPc_clock, State.afterPullWord_clock_plain hl hh]
    rfl

/-! ## Branches -/

/-- The target counts from the next instruction and wraps (40_addressing_modes.md R113). -/
theorem relTarget_toNat (off : Byte) (s : State) :
    ((relTarget off s).toNat : Int) = ((s.pc.toNat : Int) + off.toInt) % 65536 := by
  have hsext : ((sext16 off).toNat : Int) = off.toInt % 65536 := by
    rw [sext16, BitVec.signExtend, BitVec.toNat_ofInt]
    omega
  rw [relTarget, BitVec.toNat_add]
  omega

/-- A taken branch takes one cycle more than one not taken, and another to a page that is not the next instruction's. -/
theorem branch_clock (c : Bool) (off : Byte) (s : State) : (branch c off s).clock =
    s.clock + if c then (if (relTarget off s).toNat / 256 = s.pc.toNat / 256 then 1 else 2) else 0 := by
  cases c with
  | false => rfl
  | true =>
    by_cases hpage : (relTarget off s).toNat / 256 = s.pc.toNat / 256
    · have hsame : pagesDiffer (relTarget off s) s.pc = false := by simpa [hpage] using pagesDiffer_iff (relTarget off s) s.pc
      simp [branch, hsame, hpage]
    · have hdiffer : pagesDiffer (relTarget off s) s.pc = true := (pagesDiffer_iff ..).2 hpage
      simp [branch, hdiffer, hpage]

/-- A branch makes no access and changes `PC` alone. -/
theorem effect_branch (c : Bool) (off : Byte) (s : State) :
    Effect s (branch c off s) { regsOf s with pc := (branch c off s).pc } [] [] :=
  .of_trail (new := []) (Trail.refl.branch c off) (by simp [regsOf]) (branch_log c off s) nofun nofun

/-- Each row is two bytes, and the branch on its condition. -/
theorem exec_branchForms (off : Byte) (s : State) : ∀ f ∈ branchForms off s.p,
    encode f.1 = [f.2.1, off] ∧ exec f.1 s = .next (branch f.2.2 off s) := by
  intro f hf
  fin_cases hf <;> exact ⟨rfl, rfl⟩

/-- Settles O30: each row is the branch on its condition, to the target of `relTarget_toNat`. -/
theorem branchesTestOneFlag : Obligations.BranchesTestOneFlag := by
  intro off s f hf
  obtain ⟨hencode, hexec⟩ := exec_branchForms off s f hf
  refine ⟨hencode, _, hexec, effect_branch .., branch_log .., ?_, ?_⟩
  · rw [branch_pc]
    split
    · exact relTarget_toNat off s
    · rfl
  · rw [branch_clock, branch_pc, hencode]
    cases f.2.2 with
    | false => rfl
    | true =>
      simp only [if_true]
      split <;> rfl

end Sys2Proof
end

section
/-!
PROOFS. The family of 46_flags_nop.md: the flag instructions and `NOP` (R210, R211, R215, R216).
-/

namespace Sys2Proof

open Sys2Proof.Machine Sys2Proof.Claims

/-- Each row is one byte, and sets the flags it lists and no more; `NOP` lists the old ones. -/
theorem exec_flagForms (s : State) : ∀ f ∈ flagForms s.p,
    encode f.1 = [f.2.1] ∧ exec f.1 s = .next ((s.setP f.2.2).finish 2 1) := by
  intro f hf
  fin_cases hf <;> exact ⟨rfl, rfl⟩

/-- Settles O31: setting the flags makes no access, so the registers are the whole effect. -/
theorem flagInstructionsWriteOneFlag : Obligations.FlagInstructionsWriteOneFlag := by
  intro s f hf
  obtain ⟨hencode, hexec⟩ := exec_flagForms s f hf
  exact ⟨hencode, _, hexec, .of_exec_without_access hexec rfl rfl, rfl, by rw [hencode]; rfl⟩

end Sys2Proof
end

section
/-!
PROOFS. The families of 47_system.md, 48_cmos_extensions.md, 60_exceptions.md and 70_reset_and_hazards.md: the clock of a
step (R40, R315), TRB and TSB (R238, R239), interrupt entries and the return from them (R264 to R274), the fatal decode error
(R261), which instruction a step runs (R84, R284), `Reset()` (R300, R301), and the cycles of the instructions without a data
operand (R309).
-/

namespace Sys2Proof

open Sys2Proof.Machine Sys2Proof.Claims

/-! ## The clock of a step -/

/-- The record of `t` continues that of `s`, and the clock has run at least a cycle for each access it adds. -/
def Claims.ClockCovers (s t : State) : Prop := ∃ new, t.log = new ++ s.log ∧ s.clock + new.length ≤ t.clock

section ClockCovers

variable {s t u : State}

theorem Claims.ClockCovers.trans (hst : ClockCovers s t) (htu : ClockCovers t u) : ClockCovers s u := by
  obtain ⟨old, hold, hold'⟩ := hst
  obtain ⟨new, hnew, hnew'⟩ := htu
  refine ⟨new ++ old, by rw [hnew, hold, List.append_assoc], ?_⟩
  rw [List.length_append]
  omega

/-- The NMI entry is two trails with the clearing of the latch between them, which is no access and takes no cycle. -/
theorem clockCovers_nmiEntry (s : State) : ClockCovers s s.nmiEntry := by
  have hsave : ClockCovers s ((s.saveAndMask s.pc false).setNmi false) := (Trail.refl.saveAndMask s.pc false).clock_ge
  exact hsave.trans ((Trail.refl.jumpThrough nmiVector).finish intCycles 5).clock_ge

theorem log_length_le_of_trail (h : Trail s t) : s.log.length ≤ t.log.length := by
  obtain ⟨new, hnew⟩ := h.log_suffix
  rw [hnew, List.length_append]
  exact Nat.le_add_left ..

theorem log_length_lt_afterFetch (s : State) : s.log.length < s.afterFetch.log.length := by
  rw [State.afterFetch_log]
  exact Nat.lt_succ_self _

theorem log_length_lt_jumpThrough (s : State) (vector : Addr) : s.log.length < (s.jumpThrough vector).log.length := by
  rw [State.jumpThrough_log]
  exact Nat.lt_add_of_pos_right Nat.two_pos

/-- A step's clock covers its accesses, and it makes at least one: an entry reads its vector, an instruction or an illegal
opcode is fetched. -/
theorem clockCovers_of_step (h : Machine.step s = .next t) : ClockCovers s t ∧ s.log.length < t.log.length := by
  have hsave : s.log.length ≤ (s.saveAndMask s.pc false).log.length :=
    log_length_le_of_trail (Trail.refl.saveAndMask s.pc false)
  obtain ⟨-, ⟨-, rfl⟩ | ⟨-, -, -, rfl⟩ | ⟨-, -, ⟨i, n, hn, -, -, hexec⟩ | ⟨-, rfl⟩⟩⟩ := step_cases h
  · have hvector := log_length_lt_jumpThrough ((s.saveAndMask s.pc false).setNmi false) nmiVector
    rw [State.setNmi_log] at hvector
    refine ⟨clockCovers_nmiEntry s, ?_⟩
    rw [State.nmiEntry, State.finish_log]
    exact hsave.trans_lt hvector
  · refine ⟨(((Trail.refl.saveAndMask _ _).jumpThrough _).finish _ _).clock_ge, ?_⟩
    rw [State.irqEntry, State.finish_log]
    exact hsave.trans_lt (log_length_lt_jumpThrough ..)
  · obtain ⟨m, rfl⟩ : ∃ m, n = m + 1 := Nat.exists_eq_add_of_le' hn
    have hoperands : Trail s.afterFetch (s.afterFetches (m + 1)) := Trail.refl.fetches m
    have htrail := trail_of_exec hexec
    exact ⟨ClockCovers.trans (Trail.refl.fetches (m + 1)).clock_ge htrail.clock_ge, (log_length_lt_afterFetch s).trans_le
      ((log_length_le_of_trail hoperands).trans (log_length_le_of_trail htrail))⟩
  · exact ⟨(Trail.refl.fetches 1).clock_ge, log_length_lt_afterFetch s⟩

end ClockCovers

/-- Settles O50: the clock covers the accesses, of which there is at least one. -/
theorem clockCoversEveryAccess : Obligations.ClockCoversEveryAccess := by
  intro s t h
  obtain ⟨⟨new, hlog, hclock⟩, hlt⟩ := clockCovers_of_step h
  rw [hlog, List.length_append] at hlt ⊢
  exact ⟨by omega, by omega, new, rfl⟩

/-! ## What no instruction reaches, and TRB and TSB -/

/-- Settles O53: an instruction is a trail, and what a trail keeps is listed there. -/
theorem instructionsReachNoCoreControlState : Obligations.InstructionsReachNoCoreControlState := by
  intro i s
  obtain ⟨t, hexec, htrail⟩ := exec_trail i s
  refine ⟨t, hexec, htrail.run, htrail.err, htrail.variant, htrail.regions, htrail.nmi_kept, fun hp => ?_⟩
  obtain ⟨hnmi, hirq, -⟩ := htrail.latches hp
  exact ⟨hnmi, hirq⟩

/-- Settles O25: each row runs the read-modify-write template with `trbByte` or `tsbByte`. -/
theorem testAndChangeBits : Obligations.TestAndChangeBits := by
  intro z a s
  exact ⟨fun f hf => rewrites_of_exec_rmw (exec_trbForms s f hf) fun _ => rfl,
    fun f hf => rewrites_of_exec_rmw (exec_tsbForms s f hf) fun _ => rfl⟩

/-! ## Interrupt entries -/

/-- The NMI entry saves `PC` and clears the latch before it jumps (60_exceptions.md R269). -/
theorem nmiEntry_entersHandler (s : State) : EntersHandler s s.nmiEntry s.pc false 0xFFFA :=
  entersHandler_of_saveAndMask (by decide) (by decide)

/-- The IRQ entry saves `PC` and leaves the latch to the accesses. -/
theorem irqEntry_entersHandler (s : State) : EntersHandler s s.irqEntry s.pc false 0xFFFE :=
  entersHandler_of_saveAndMask (nmi := (s.saveAndMask s.pc false).nmiPending) (by decide) (by decide)

/-- Where no address of an entry is a device's, the NMI latch is as it was set before the jump, the IRQ level as before the
entry, and the five accesses take a cycle each. -/
theorem entry_quiet {s : State} {ret vector : Addr} {b nmi : Bool} {total accesses : Nat}
    (hd : NoDevice s (entryTouches s vector)) :
    let t := (((s.saveAndMask ret b).setNmi nmi).jumpThrough vector).finish total accesses
    t.nmiPending = nmi ∧ t.irqLine = s.irqLine ∧ t.clock = s.clock + 5 + (total - accesses) := by
  obtain ⟨h0, h1, h2, hl, hh⟩ := noDevice_entryTouches.1 hd
  obtain ⟨-, hirq, -⟩ := State.saveAndMask_quiet (ret := ret) (b := b) h0 h1 h2
  have hl' : PlainAt ((s.saveAndMask ret b).setNmi nmi) vector := State.plainAt_of_regions hl (by simp)
  have hh' : PlainAt ((s.saveAndMask ret b).setNmi nmi) (vector + 1) := State.plainAt_of_regions hh (by simp)
  obtain ⟨jnmi, jirq, -⟩ := State.jumpThrough_quiet hl' hh'
  refine ⟨jnmi, jirq.trans hirq, ?_⟩
  rw [State.finish_clock, State.jumpThrough_clock_plain hl' hh', State.setNmi_clock, State.saveAndMask_clock_plain h0 h1 h2]

theorem step_eq_nmiEntry {s : State} (hrun : s.run = .running) (hnmi : s.nmiPending = true) :
    Machine.step s = .next s.nmiEntry := by
  simp [Machine.step, boundary, hrun, hnmi]

theorem step_eq_irqEntry {s : State} (hrun : s.run = .running) (hnmi : s.nmiPending = false) (hirq : s.irqLine = true)
    (hi : s.p.i = false) : Machine.step s = .next s.irqEntry := by
  simp [Machine.step, boundary, State.irqTaken, hrun, hnmi, hirq, hi]

/-- Settles O38: a pending NMI is the first thing a boundary looks at. -/
theorem nmiIsServicedFirst : Obligations.NmiIsServicedFirst := fun s hrun hnmi =>
  ⟨s.nmiEntry, step_eq_nmiEntry hrun hnmi, nmiEntry_entersHandler s, fun hd => entry_quiet hd⟩

/-- Settles O39: an unmasked IRQ is the next, and its entry leaves both latches alone. -/
theorem irqIsServicedWhenUnmasked : Obligations.IrqIsServicedWhenUnmasked := by
  intro s hrun hnmi hirq hi
  refine ⟨s.irqEntry, step_eq_irqEntry hrun hnmi hirq hi, irqEntry_entersHandler s, fun hd => ?_⟩
  obtain ⟨h0, h1, h2, -, -⟩ := noDevice_entryTouches.1 hd
  obtain ⟨hsaved, -⟩ := State.saveAndMask_quiet (ret := s.pc) (b := false) h0 h1 h2
  obtain ⟨hlatch, hline, hclock⟩ := entry_quiet (ret := s.pc) (b := false) (nmi := (s.saveAndMask s.pc false).nmiPending)
    (total := intCycles) (accesses := 5) hd
  exact ⟨hlatch.trans (hsaved.trans hnmi), hline.trans hirq, hclock⟩

/-! ## The return from an entry -/

/-- Loading a status image gives back the flags it was made of, whatever its `B` (10_state.md R35, R36). -/
theorem Machine.Flags.ofByte_image (p : Flags) (b : Bool) : Flags.ofByte (p.image b) = p := by
  obtain ⟨c, z, i, d, v, n⟩ := p
  revert c z i d v n b
  decide

/-- `RTI` with `S` and memory as an entry left them pulls the three bytes the entry pushed. -/
theorem rti_of_entersHandler {s t u : State} {ret vector pc : Addr} {b : Bool} (hentry : EntersHandler s t ret b vector)
    (hw : s.mem.wf) (hstack : StackIsRam s) (hl : PlainAt s vector) (hh : PlainAt s (vector + 1))
    (hrti : exec .rti (t.setPc pc) = .next u) : u.pc = ret ∧ u.p = s.p ∧ u.sp = s.sp := by
  have hram (sp : Byte) : regionAt s.regions (State.stackAddr sp) = .ram := stackSlot_eq_stackAddr sp ▸ hstack sp
  have hplain (sp : Byte) : PlainAt s (State.stackAddr sp) := fun id => by simp [hram]
  have hplain' (sp : Byte) : PlainAt (t.setPc pc) (State.stackAddr sp) :=
    State.plainAt_of_regions (hplain sp) (by simpa using hentry.regions)
  have hd : NoDevice s (entryTouches s vector) := noDevice_entryTouches.2 ⟨hplain _, hplain _, hplain _, hl, hh⟩
  have hsp : (t.setPc pc).sp = s.sp - 3 := congrArg Regs.sp hentry.regs
  have hstatus := hentry.status hd hw (hstack _)
  have hlow := hentry.low hd hw (hstack _)
  have hhigh := hentry.high hd hw (hstack _)
  rw [stackSlot_eq_stackAddr] at hstatus hlow hhigh
  have h1 : (t.setPc pc).sp + 1 = s.sp - 2 := by rw [hsp]; bv_omega
  have h2 : (t.setPc pc).sp + 2 = s.sp - 1 := by rw [hsp]; bv_omega
  have h3 : (t.setPc pc).sp + 3 = s.sp := by rw [hsp]; bv_omega
  obtain ⟨hpl, hph, -⟩ := State.exceptionReturn_plain (hplain' ((t.setPc pc).sp + 1)) (hplain' _) (hplain' _)
  rw [h2] at hpl
  rw [h3] at hph
  cases hrti
  refine ⟨?_, ?_, ?_⟩
  · rw [State.finish_pc, State.exceptionReturn_eq, State.setPc_pc, State.pulledWord, hpl, hph, State.setPc_mem, hlow, hhigh,
      ofNat_eq_loByte, ofNat_div_eq_hiByte, mkAddr_loByte_hiByte]
  · have hp : (t.setPc pc).exceptionReturn.p = Flags.ofByte (t.setPc pc).pulled := by simp [State.exceptionReturn]
    rw [State.finish_p, hp, State.pulled_plain _ (hplain' _), h1, State.setPc_mem, hstatus, statusImage_eq_image,
      Flags.ofByte_image]
  · simpa [State.exceptionReturn, add_assoc] using h3

/-- Settles O34: each of the three is an entry, through a vector that is not a device's. -/
theorem rtiUndoesAnEntry : Obligations.RtiUndoesAnEntry := by
  intro pc s t u hw hstack hd hrti
  obtain ⟨hnl, hnh, hil, hih⟩ : PlainAt s 0xFFFA ∧ PlainAt s 0xFFFB ∧ PlainAt s 0xFFFE ∧ PlainAt s 0xFFFF := by
    simpa [NoDevice] using hd
  refine ⟨?_, fun hbrk => ?_⟩
  · rintro (rfl | rfl)
    · exact rti_of_entersHandler (nmiEntry_entersHandler s) hw hstack hnl hnh hrti
    · exact rti_of_entersHandler (irqEntry_entersHandler s) hw hstack hil hih hrti
  · obtain ⟨t', hexec, hentry, -⟩ := brkEntersTheHandler s
    cases hbrk.symm.trans hexec
    exact rti_of_entersHandler hentry hw hstack hil hih hrti

/-! ## The fatal decode error -/

theorem stepInstr_of_illegal {s : State} (h : lookupOpcode s.variant (s.readByte s.pc) = none) :
    stepInstr s = .next (s.afterFetch.decodeError (s.readByte s.pc) s.pc) := by
  simp only [stepInstr, State.fetchInstr, h]

/-- Settles O37: the opcode has no row, so the step is its fetch and the decode error. -/
theorem illegalOpcodeHalts : Obligations.IllegalOpcodeHalts := by
  intro s hrun hnmi hmasked hillegal
  have hlookup : lookupOpcode s.variant (s.readByte s.pc) = none := by
    rw [lookupOpcode_eq_none_iff]
    cases hvariant : s.variant <;> simp only [hvariant] at hillegal
    · exact (notMem_iff_of_byteSet legal_or_listed_nmos _).2 hillegal
    · exact (notMem_iff_of_byteSet legal_or_listed_cmos _).2 hillegal
  have hstep := (step_eq_stepInstr hrun hnmi hmasked).trans (stepInstr_of_illegal hlookup)
  refine ⟨_, hstep, rfl, ?_, rfl, rfl, ?_, ?_, ?_, fun hd => ?_⟩
  · simp [regsOf, State.decodeError]
  · exact s.afterFetch_variant
  · exact s.afterFetch_regions
  · exact s.afterFetch_log
  · rw [State.decodeError, State.afterFetch, State.afterRead_plain s s.pc (hd _ (List.mem_singleton_self _))]
    exact ⟨rfl, rfl, rfl, fun n => rfl⟩

/-! ## Which instruction a step runs -/

/-- Settles O35: the decoder reads three fetched bytes, of which the instruction is all but the rest. -/
theorem stepRunsTheDecodedInstruction : Obligations.StepRunsTheDecodedInstruction := by
  intro s i rest hrun hnmi hmasked hdecode
  obtain ⟨hbytes, -⟩ := decodedBytesAreTheEncoding _ _ _ _ hdecode
  have hlength := congrArg List.length hbytes
  rw [State.fetchedBytes_length, List.length_append] at hlength
  have hcount : 3 - rest.length = (encode i).length := by omega
  refine ⟨?_, State.regsOf_afterFetches _ s⟩
  rw [step_eq_stepInstr hrun hnmi hmasked, stepInstr, fetchInstr_of_decode s i rest hdecode, hcount]

/-! ### A placed word -/

/-- Placing drops the device windows that hold one of the three addresses, so none of them is a device's. -/
theorem noDevice_placeInstr (s : State) (bytes : List Byte) :
    NoDevice (s.placeInstr bytes) [s.pc, s.pc + 1, s.pc + 2] := by
  intro a ha id hdevice
  unfold regionAt at hdevice
  split at hdevice
  · next r hfind =>
    have hholds := List.find?_some hfind
    have hkept := (List.mem_filter.1 (List.mem_of_find?_eq_some hfind)).2
    simp only [hdevice, Bool.or_eq_true, beq_iff_eq, reduceCtorEq, or_false, List.all_eq_true] at hkept
    simpa [hholds] using hkept a ha
  · cases hdevice

/-- Three bytes stored at three addresses are found there. -/
theorem read_of_three_stores {m : Memory} (hw : m.wf) {a0 a1 a2 : Addr} (h10 : a1 ≠ a0) (h20 : a2 ≠ a0) (h21 : a2 ≠ a1)
    (b0 b1 b2 : Byte) : [a0, a1, a2].map (fun a =>
      Memory.read ([(a0, b0), (a1, b1), (a2, b2)].foldl (fun m w => m.write w.1.toNat w.2) m) a.toNat) = [b0, b1, b2] := by
  obtain ⟨-, hread⟩ := foldl_write_reads hw [(a0, b0), (a1, b1), (a2, b2)]
  simp only [hread]
  simp [BitVec.toNat_inj, h10, h20, h21]

/-- The three bytes placed are found from `PC` on. -/
theorem placeInstr_mem {s : State} (hw : s.mem.wf) (b0 b1 b2 : Byte) :
    [s.pc, s.pc + 1, s.pc + 2].map (fun a => (s.placeInstr [b0, b1, b2]).mem.read a.toNat) = [b0, b1, b2] :=
  read_of_three_stores hw (by bv_omega) (by bv_omega) (by bv_omega) b0 b1 b2

theorem fetchRun_three (pc : Addr) : fetchRun pc 3 = [pc, pc + 1, pc + 2] := by
  rw [fetchRun_succ, fetchRun_succ, fetchRun_succ, add_assoc]
  rfl

/-- Settles O59: the next three fetches return the placed bytes, and no interrupt comes before them. -/
theorem placedWordIsTheNextInstruction : Obligations.PlacedWordIsTheNextInstruction := by
  intro s nbits w i rest hw hdecode
  have hfetched : (s.withFetchWord nbits w).fetchedBytes 3 = bytesOfWord nbits w := by
    have hd : NoDevice (s.withFetchWord nbits w) (fetchRun s.pc 3) := fetchRun_three s.pc ▸ noDevice_placeInstr s _
    obtain ⟨hbytes, -⟩ := State.afterFetches_plain 3 (s.withFetchWord nbits w) hd
    exact hbytes.trans ((congrArg _ (fetchRun_three s.pc)).trans (placeInstr_mem hw ..))
  have hmasked : (s.withFetchWord nbits w).irqLine = true → (s.withFetchWord nbits w).p.i = true := by
    simp [State.withFetchWord, State.placeInstr]
  obtain ⟨hstep, -⟩ := stepRunsTheDecodedInstruction (s.withFetchWord nbits w) i rest rfl rfl hmasked
    (by rw [hfetched]; exact hdecode)
  exact hstep

/-! ## Run states, latches and Reset() -/

/-- Settles O41: a step looks at the run state first. -/
theorem stepOutsideRunningIsStuck : Obligations.StepOutsideRunningIsStuck := by
  intro s
  refine ⟨fun h => ?_, fun h => ?_, fun h => ?_, step_running⟩
  all_goals simp only [Machine.step, h]

/-- Settles O44: each operation sets one field to a constant. -/
theorem latchOperationsAreIdempotent : Obligations.LatchOperationsAreIdempotent :=
  fun _ => ⟨rfl, rfl, rfl, rfl, rfl, rfl⟩

/-- The state in which `Reset()` reads its vector (70_reset_and_hazards.md R300). -/
def Machine.State.resetting (s : State) : State :=
  (((s.setRun .resetting none).setNmi false).setP (s.p.masked s.variant)).setSp resetSp

theorem Machine.State.doReset_eq (s : State) :
    s.doReset = ((s.resetting.jumpThrough resetVector).finish resetCycles 2).setRun .running none := rfl

/-- Settles O42: `Reset()` sets its registers and jumps through its vector. -/
theorem resetFromAnyState : Obligations.ResetFromAnyState := by
  intro s
  have hplain (hd : NoDevice s [0xFFFC, 0xFFFD]) :
      PlainAt s.resetting resetVector ∧ PlainAt s.resetting (resetVector + 1) :=
    ⟨hd 0xFFFC (by simp), hd 0xFFFD (by simp)⟩
  refine ⟨?_, rfl, rfl, ?_, ?_, ?_, fun hd => ?_⟩
  · simp [regsOf, maskedFlags_eq_masked, State.doReset, resetSp]
  · simp [State.doReset]
  · simp [State.doReset]
  · refine pcFrom_jumpThrough (u := s.resetting) (total := resetCycles) (accesses := 2) fun hd => ?_
    obtain ⟨hl, hh⟩ := hplain hd
    exact ⟨hl, hh, rfl, rfl⟩
  · obtain ⟨hl, hh⟩ := hplain hd
    obtain ⟨hnmi, hirq, hmem⟩ := State.jumpThrough_quiet hl hh
    refine ⟨hnmi, hirq, ?_, hmem⟩
    rw [State.doReset_eq, State.setRun_clock, State.finish_clock, State.jumpThrough_clock_plain hl hh]
    rfl

/-! ## Cycles of the instructions without a data operand -/

/-- The instruction completes and takes, with its fetches, as many cycles as the row says. -/
def Claims.TakesCycles (s : State) (f : Instr × Nat) : Prop :=
  ∃ t, exec f.1 s = .next t ∧ t.clock + (encode f.1).length = s.clock + f.2

def Claims.pushCycles : List (Instr × Nat) := [(.pha, 3), (.php, 3), (.phx, 3), (.phy, 3)]

def Claims.pullCycles : List (Instr × Nat) := [(.pla, 4), (.plp, 4), (.plx, 4), (.ply, 4)]

def Claims.jumpCycles (a : Addr) (s : State) : List (Instr × Nat) :=
  [(.jmpAbs a, 3), (.jmpInd a, jmpIndCycles s), (.jmpIax a, 6), (.jsr a, 6)]

def Claims.returnCycles : List (Instr × Nat) := [(.rts, 6), (.rti, 6), (.brk, 7)]

/-- The instructions without a data operand, by kind; those of the first three lists take two cycles. -/
def Claims.cyclesByKind (a : Addr) (s : State) : List (Instr × Nat) :=
  (transferForms s).map (·.1, 2) ++ (indexForms s).map (·.1, 2) ++ (flagForms s.p).map (·.1, 2) ++ pushCycles ++
    pullCycles ++ jumpCycles a s ++ returnCycles

section OtherCycles

variable {s : State}

theorem otherCycles_subset_cyclesByKind (a : Addr) (s : State) : otherCycles a s.variant ⊆ cyclesByKind a s := by
  cases hvariant : s.variant <;>
    simp [otherCycles, cyclesByKind, transferForms, indexForms, flagForms, pushCycles, pullCycles, jumpCycles, returnCycles,
      jmpIndCycles, hvariant]

theorem takesCycles_transferForms : ∀ f ∈ transferForms s, TakesCycles s (f.1, 2) := by
  intro f hf
  obtain ⟨-, t, hexec, -, -, hclock⟩ := transfersCopyARegister s f hf
  exact ⟨t, hexec, hclock⟩

theorem takesCycles_indexForms : ∀ f ∈ indexForms s, TakesCycles s (f.1, 2) := by
  intro f hf
  obtain ⟨-, t, hexec, -, -, hclock⟩ := indexIncrementsAndDecrements s f hf
  exact ⟨t, hexec, hclock⟩

theorem takesCycles_flagForms : ∀ f ∈ flagForms s.p, TakesCycles s (f.1, 2) := by
  intro f hf
  obtain ⟨-, t, hexec, -, -, hclock⟩ := flagInstructionsWriteOneFlag s f hf
  exact ⟨t, hexec, hclock⟩

variable (hp : AllPlain s)
include hp

theorem takesCycles_pushCycles : ∀ f ∈ pushCycles, TakesCycles s f := by
  have hpush (v : Byte) : ((s.push v).finish 3 2).clock + 1 = s.clock + 3 := by
    rw [State.finish_clock, State.push_clock_plain _ _ (hp _)]
  intro f hf
  fin_cases hf <;> exact ⟨_, rfl, hpush _⟩

theorem takesCycles_pullCycles : ∀ f ∈ pullCycles, TakesCycles s f := by
  have hpull : s.afterPull.clock + 2 + 1 = s.clock + 4 := by rw [State.afterPull_clock_plain _ (hp _)]
  intro f hf
  fin_cases hf <;> exact ⟨_, rfl, hpull⟩

theorem takesCycles_jumpCycles (a : Addr) : ∀ f ∈ jumpCycles a s, TakesCycles s f := by
  have hpair (lo hi : Addr) (n : Nat) : (s.afterPair lo hi).clock + n + 3 = s.clock + 5 + n := by
    rw [State.afterPair_clock_plain s _ _ (hp _) (hp _)]
    omega
  have hpush : (s.pushWord (s.pc - 1)).clock + 1 + 3 = s.clock + 6 := by
    rw [State.pushWord, State.push_clock_plain _ _ (State.allPlain_of_regions hp (by simp) _),
      State.push_clock_plain _ _ (hp _)]
  have hind : 5 + (jmpIndCycles s - 5) = jmpIndCycles s := by unfold jmpIndCycles; split <;> rfl
  simp only [jumpCycles, List.forall_mem_cons]
  refine ⟨⟨_, rfl, rfl⟩, ⟨_, rfl, ?_⟩, ⟨_, rfl, hpair _ _ 1⟩, ⟨_, rfl, hpush⟩, nofun⟩
  exact (hpair _ _ _).trans (by rw [Nat.add_assoc, hind])

theorem takesCycles_returnCycles : ∀ f ∈ returnCycles, TakesCycles s f := by
  have hd (l : List Addr) : NoDevice s l := fun b _ => hp b
  simp only [returnCycles, List.forall_mem_cons]
  refine ⟨?_, ?_, ?_, nofun⟩
  · obtain ⟨-, hrts⟩ := rtsPullsAndAddsOne
    obtain ⟨t, hexec, -, -, hclock⟩ := hrts s
    exact ⟨t, hexec, hclock (hd _)⟩
  · obtain ⟨t, _, hexec, -, -, hplain⟩ := rtiRestoresFlagsAndPc s
    obtain ⟨-, hclock⟩ := hplain (hd _)
    exact ⟨t, hexec, hclock⟩
  · obtain ⟨t, hexec, -, hplain⟩ := brkEntersTheHandler s
    obtain ⟨-, -, hclock⟩ := hplain (hd _)
    exact ⟨t, hexec, hclock⟩

theorem takesCycles_cyclesByKind (a : Addr) : ∀ f ∈ cyclesByKind a s, TakesCycles s f := by
  simp only [cyclesByKind, List.forall_mem_append, List.forall_mem_map, and_assoc]
  exact ⟨takesCycles_transferForms, takesCycles_indexForms, takesCycles_flagForms, takesCycles_pushCycles hp,
    takesCycles_pullCycles hp, takesCycles_jumpCycles hp a, takesCycles_returnCycles hp⟩

end OtherCycles

/-- Settles O58: each instruction is of one of the kinds, and each kind takes its cycles. -/
theorem cyclesOfOtherInstructions : Obligations.CyclesOfOtherInstructions :=
  fun a s hp f hf => takesCycles_cyclesByKind hp a f (otherCycles_subset_cyclesByKind a s hf)

end Sys2Proof
end
